-- ==== Sys2Proof/Word.lean ====
section
/-! DEFINITION. The word types of the model, and the sparse table in which it keeps everything the spec numbers. -/

namespace Sys2Proof

/-- One byte on a wire, in a packet or in a memory. -/
abbrev Byte := BitVec 8

/-- A byte string in order of arrival or of rising address. -/
abbrev Bytes := List Byte

/-- A sparse table by number: the entries stand in strictly rising key order, and none equals what an
unlisted key reads as, so that equal tables are equal data. `Tab (BitVec 8)` is a memory of `Host.Cell`s. -/
abbrev Tab (α : Type) := List (Nat × α)

/-- A time or a span, in units of 2^-16 · 5^-7 ns: 1 ns is 5,120,000,000 units. The unit divides the
stamp resolution (R146), the tenth of a nanosecond (R56), the picosecond (R146), the byte times (R187)
and a tenth of a nanosecond times a factor D_m in millionths (R59). -/
abbrev Time := Int

end Sys2Proof
end

