-- ==== Sys2Proof/Syntax.lean ====
section
/-! DEFINITION. The commands of the block: one constructor of `Instr` per row of spec/opcode_table.json. The table
gives a row no operand; a constructor's operands are what the spec says the event brings with it (the unit it
happens at, the bytes that arrive, the value written and who writes it, the value a sensor measures). -/

namespace Sys2Proof

/-- Who sends a request to the dictionary (R515): the TAP, a CAN node, or a mesh node through the mailbox. -/
inductive Requester where
  | tap
  | can (node : BitVec 7)
  | mesh (x y : BitVec 16)
  deriving DecidableEq, Repr

/-- Link speed of an Ethernet port (R78). -/
inductive Speed where
  | g10
  | g25
  deriving DecidableEq, Repr

/-- Which chain of a frame (R104): its action or default ring, its COPY, or message `k` of the frame. -/
inductive ChainKind where
  | action
  | copy
  | message (k : Nat)
  deriving DecidableEq, Repr

/-- A frame to be sent, as its descriptors give it (R110, R113). -/
structure TxFrame where
  /-- ring 0x00–0x3F, or 0x40 + p for the firmware queue of port p -/
  src : Nat
  tc : BitVec 3
  tsReq : Bool
  oneStep : Bool
  /-- W4 of the descriptor: the reference N of a one-step Sync (R160) -/
  refN : BitVec 32
  data : Bytes
  /-- its descriptors as the ring holds them; none for the firmware queue -/
  descs : List Bytes
  deriving DecidableEq, Repr

/-- The head frame of a transmit ring: its descriptors from SOP to EOP, and the bytes of their buffers. -/
structure TxHead where
  ring : BitVec 6
  descs : List Bytes
  data : Bytes
  deriving DecidableEq, Repr

/-- The other end of a PTP message that is not multicast: its Ethernet and IPv4 addresses (R158). -/
structure PtpPeer where
  mac : BitVec 48
  ip : BitVec 32
  deriving DecidableEq, Repr

/-- What an Announce says of its sender, for the best master clock algorithm of clause 9.3 (R158): priority1, clockClass,
clockAccuracy, offsetScaledLogVariance, priority2 and identity of its grandmaster, stepsRemoved, and the sender's port
identity. -/
structure PtpData where
  priority1 : BitVec 8
  clockClass : BitVec 8
  accuracy : BitVec 8
  variance : BitVec 16
  priority2 : BitVec 8
  grandmaster : BitVec 64
  steps : BitVec 16
  sender : BitVec 80
  deriving DecidableEq, Repr

/-- A PTP message as the instance sees it (R158), its stamps taken by the port in 2^-16 ns. -/
inductive PtpMsg where
  | announce (port : BitVec 3) (data : PtpData) (peer : Option PtpPeer)
  /-- one-step Sync, or a two-step Sync with its Follow_Up: sender, origin time, correction, ingress stamp, and the Step count
  of the base when the Sync came -/
  | sync (port : BitVec 3) (sender : BitVec 80) (origin correction ingress : Int) (step : BitVec 8)
  /-- Delay_Resp: sender, the master's receive time, correction, the egress stamp of the request, and its sequence number -/
  | delayResp (port : BitVec 3) (sender : BitVec 80) (received correction egress : Int) (sequence : BitVec 16)
  | delayReq (port : BitVec 3) (ingress correction : Int) (requester : BitVec 80) (sequence : BitVec 16) (peer : Option PtpPeer)
  | management
  | signaling
  deriving DecidableEq, Repr

/-- Which PTP interval expired (R158, R165). -/
inductive PtpTimer where
  | sync
  | delayReq
  | announce
  deriving DecidableEq, Repr

/-- A link control flit as received (R437), with its CRC already judged by its bytes. -/
abbrev Flit := Bytes

/-- A Flue packet as received: its bytes from the first header byte to the last payload byte (R439). -/
abbrev Packet := Bytes

/-- How a fault in an engine showed itself (R270, R302, R429): a word whose error the code corrects, one that it cannot
correct, or a residue mismatch of the datapath. -/
inductive ErrKind where
  | corrected
  | uncorrectable
  | residue
  deriving DecidableEq, Repr

/-- What a bank reported of the lines of a local cache that a piece of work read (R318): the uncorrectable ones, counted in
64-byte lines from the start of the cache, and how many were corrected. -/
structure LineFaults where
  bad : List Nat
  corrected : Nat
  deriving DecidableEq, Repr

/-- A remote or local copy that a migration reads (R323, R324): whose, and what the banks reported of a local one. -/
structure CopyRead where
  instrument : BitVec 14
  faults : LineFaults
  deriving DecidableEq, Repr

/-- A rollout step's reads (R296): of which scratch slot, and what the banks reported of a local cache. -/
structure ScratchRead where
  slot : BitVec 2
  faults : LineFaults
  deriving DecidableEq, Repr

/-- A bank row read to be copied to a spare (R329): its number, and the lines of its 64 that could not be read. -/
structure RowRead where
  row : Nat
  unread : List (BitVec 6)
  deriving DecidableEq, Repr

/-- What a gauge window ends with (R42, R71): the ring cycles that its gauge counted, and the VDD_CORE monitor in mV. -/
structure GaugeRead where
  count : Nat
  vdd : Nat
  deriving DecidableEq, Repr

/-- A reference a base's PLL locks on (R134): the base, and how far the reference is off its setting, in parts per billion. -/
structure Reference where
  base : BitVec 2
  ppb : Int
  deriving DecidableEq, Repr

/-- The work of an Opal lane that a fault can reach (R302): a step, or the rollout of a scratch slot. -/
inductive OpalWork where
  | step (k : Nat)
  | rollout (c : BitVec 6) (slot : BitVec 2)
  deriving DecidableEq, Repr

/-- How a fault in an engine that costs a piece of work showed itself. -/
def ErrKind.lost (k : ErrKind) : Bool := k != .corrected

/-- What a port has seen by the end of a received frame besides its bytes: an error or error control character of the PCS
or a sequence error of the MAC merge sublayer within the frame (R85, R91), the lengths with mCRC of the fragments before the
last of a preemptable frame (R121), and the RS-FEC codewords since the end of the frame before that were corrected and that
could not be (R126). -/
structure RxTail where
  codeError : Bool
  fragments : List Nat
  corrected : Nat
  uncorrected : Nat
  deriving DecidableEq, Repr

/-- What a state access finds in the memories it reads (R233): no error, one that the code corrects, an uncorrectable error
of the row, or one of the edge memory. -/
inductive RowFault where
  | none
  | corrected
  | row
  | edge
  deriving DecidableEq, Repr

/-- What a service step finds outside the block: the round trips of the probes that a write has sent (R312, R398), and the
bytes in the staging area (R537, R557). -/
structure Env where
  probePs : List Nat
  staged : Option Bytes
  deriving DecidableEq, Repr

/-- A CAN FD upload request (R526): the first of an object, one for the next segment, or one with a command specifier that
the block does not serve; `room` is how many data bytes the response carries. -/
inductive UsdoUp where
  | first (room : Nat)
  | next (room : Nat)
  | other
  deriving DecidableEq, Repr

/-- A CAN FD download request (R526): the first with the object's size, one with a further segment, or one with a command
specifier that the block does not serve. -/
inductive UsdoDown where
  | first (total : Nat) (segment : Bytes)
  | next (segment : Bytes)
  | other
  deriving DecidableEq, Repr

/-- The commands, in the order of spec/opcode_table.json. -/
inductive Instr where
  -- contexts (01, 16, 17)
  | load (q : Requester) (c : BitVec 6)
  | loadComplete (c : BitVec 6) (container : Option Bytes) (probePs : List Nat)
  | openContext (q : Requester) (c : BitVec 6)
  | closeContext (q : Requester) (c : BitVec 6)
  | recover (q : Requester) (c : BitVec 6)
  | unload (q : Requester) (c : BitVec 6)
  | unloadComplete (c : BitVec 6)
  | generationAdvance (c : BitVec 6)
  | purgeComplete (c : BitVec 6)
  | purgeTimeout (c : BitVec 6) (engine : BitVec 3) (domain : Nat)
  | partitionCycleDone (domain : Nat) (selfTestOk : Bool) (purged : Bool)
  | recoveryComplete (c : BitVec 6)
  | hangDetect (c : BitVec 6) (engine : BitVec 3)
  -- ports (03)
  | portModeWrite (q : Requester) (p : BitVec 3) (mode : BitVec 8)
  | restartLink (q : Requester) (p : BitVec 3)
  | linkUp (p : BitVec 3) (speed : Speed) (rsFec : Bool)
  | linkDown (p : BitVec 3)
  | linkTrainingTimeout (p : BitVec 3)
  | rxFrameStart (p : BitVec 3) (dest : BitVec 48) (express : Bool)
  | filterDecided (p : BitVec 3) (bytes : Bytes)
  | rxFrameEnd (p : BitVec 3) (bytes : Bytes) (tail : RxTail)
  | rxOversize (p : BitVec 3) (bytes : Bytes)
  | rxAbort (p : BitVec 3) (bytes : Bytes)
  | macVerdict (frame : Nat)
  | effectiveVerdict (frame : Nat)
  | symbolLookup (p : BitVec 3) (bytes : Bytes)
  | decisionPoint (p : BitVec 3) (bytes : Bytes)
  | stateAccess (c : BitVec 6) (found : RowFault)
  | stateClear (q : Requester) (c : BitVec 6) (value : BitVec 16)
  | oldSweep
  | ringChainDue (frame : Nat) (kind : ChainKind)
  | ringChainWrite (r : BitVec 6) (descriptors : List Bytes) (written : Bool)
  | ringNotifyTimer (r : BitVec 6)
  | ringTailWrite (q : Requester) (r : BitVec 6) (tail : BitVec 16)
  | ringConfigWrite (q : Requester) (r : BitVec 6) (sub : BitVec 8) (value : BitVec 64)
  | filterEntryWrite (q : Requester) (p : BitVec 3) (entry : Bytes)
  | txFrameStart (p : BitVec 3) (heads : List TxHead)
  | txFrameDone (p : BitVec 3)
  | gateEntryAdvance (p : BitVec 3)
  | configChange (q : Requester) (p : BitVec 3) (value : BitVec 8)
  | configChangeApply (p : BitVec 3)
  | preemptionVerifyTimer (p : BitVec 3)
  | verifyResponse (p : BitVec 3) (respond : Bool)
  -- Quartz (04)
  | baseWrap (n : BitVec 2)
  | epochIncrement (n : BitVec 2)
  | rateWrite (q : Requester) (n : BitVec 2) (rate : BitVec 64)
  | referenceLost (n : BitVec 2)
  | referenceLocked (ref : Reference)
  | sessionArm (q : Requester) (n : BitVec 2)
  | sessionEnd (q : Requester) (n : BitVec 2)
  | step (q : Requester) (n : BitVec 2) (delta : BitVec 64)
  | setTime (q : Requester) (n : BitVec 2) (target : BitVec 64)
  | stepApply (n : BitVec 2)
  | ptpMessageRx (n : BitVec 2) (message : PtpMsg)
  | ptpIntervalTimer (n : BitVec 2) (port : BitVec 3) (timer : PtpTimer)
  | announceReceiptTimeout (n : BitVec 2) (port : BitVec 3)
  | ptpRoleWrite (q : Requester) (n : BitVec 2) (role : BitVec 8)
  | pulseModeWrite (q : Requester) (k : BitVec 2) (mode : BitVec 8)
  | pulseEdge (k : BitVec 2)
  | pulseWidthEnd (k : BitVec 2)
  | captureEdge (k : BitVec 2) (rising : Bool)
  | nextStamp (q : Requester) (k : BitVec 2)
  | extendedTimeRead (q : Requester) (n : BitVec 2)
  -- symbol table (05)
  | symbolInsert (q : Requester) (c : BitVec 6) (instrument : BitVec 16) (symbol : BitVec 64)
  | symbolRemove (q : Requester) (c : BitVec 6) (symbol : BitVec 64)
  -- Opal (09)
  | opalEventIssue (message : Nat)
  | opalStepStart (step : Nat) (bad : List Nat) (corrected : Nat)
  | slotPublish (step : Nat)
  | sequenceUpdate (instrument : BitVec 14)
  | weightLoad (q : Requester) (c : BitVec 6) (container : Bytes)
  | weightSwitch (q : Requester) (c : BitVec 6)
  | weightDiscard (q : Requester) (c : BitVec 6)
  | weightError (work : OpalWork) (kind : ErrKind)
  | weightRewriteDone (c : BitVec 6) (group : BitVec 2)
  | laneRetire (lane : BitVec 4)
  | rolloutRequest (q : Requester) (c : BitVec 6) (request : Bytes)
  | rolloutStep (c : BitVec 6) (read : ScratchRead)
  | rolloutStatusRead (q : Requester) (c : BitVec 6)
  -- Mantel (10)
  | migrate (q : Requester) (c : BitVec 6) (request : Bytes)
  | migrateCopyDone (copy : CopyRead)
  | migrateLock (instrument : BitVec 14)
  | migrateSwitch (copy : CopyRead)
  | migrateRelease (instrument : BitVec 14)
  | regionDescriptorWrite (q : Requester) (descriptor : Bytes) (probePs : Nat)
  | regionUnfence (region : BitVec 6)
  | localQuotaWrite (q : Requester) (c : BitVec 6) (quota : BitVec 32)
  | remoteWriteFailure (instrument : BitVec 14) (position : Option Nat) (address : BitVec 34)
  | spareRowReplace (bank : Nat) (read : RowRead)
  | bankRetire (bank : Nat)
  -- Garnet (08)
  | ensembleLoad (q : Requester) (c : BitVec 6) (container : Bytes)
  | ensembleFree (q : Requester) (c : BitVec 6)
  | programSwitch (q : Requester) (c : BitVec 6) (value : BitVec 16)
  | garnetPass (message : Nat)
  | treeDecision (message : Nat)
  | treeMemoryError (message : Nat) (slice : BitVec 9) (word : BitVec 13) (kind : ErrKind)
  | treeReloadDone (c : BitVec 6) (slot : BitVec 4)
  | sliceRetire (slice : BitVec 9)
  | relayoutDone (c : BitVec 6) (slot : BitVec 4)
  -- Hearth units (11): the unit at a site fires
  | mul (site : BitVec 12)
  | add (site : BitVec 12)
  | sub (site : BitVec 12)
  | dot (site : BitVec 12)
  | acc (site : BitVec 12)
  | imul (site : BitVec 12)
  | cmp (site : BitVec 12)
  | sel (site : BitVec 12)
  | drop (site : BitVec 12)
  | steer (site : BitVec 12)
  | merge (site : BitVec 12)
  | plog (site : BitVec 12)
  | logic (site : BitVec 12)
  | shift (site : BitVec 12)
  | iadd (site : BitVec 12)
  | minmax (site : BitVec 12)
  | cvt (site : BitVec 12)
  | idx (site : BitVec 12)
  | rep (site : BitVec 12)
  | exp (site : BitVec 12)
  | log (site : BitVec 12)
  | recip (site : BitVec 12)
  | rsqrt (site : BitVec 12)
  | sqrt (site : BitVec 12)
  | tanh (site : BitVec 12)
  | sigmoid (site : BitVec 12)
  | silu (site : BitVec 12)
  | gelu (site : BitVec 12)
  | tab (site : BitVec 12)
  | ldstRead (site : BitVec 12)
  | ldstWrite (site : BitVec 12)
  | rmw (site : BitVec 12)
  | stream (site : BitVec 12)
  | stb (site : BitVec 12)
  | fin (site : BitVec 12)
  | cout (site : BitVec 12)
  | flo (site : BitVec 12)
  | fli (site : BitVec 12)
  | kwait (site : BitVec 12)
  | kinc (site : BitVec 12)
  -- Hearth configurations (12)
  | deadlockDetect (c : BitVec 6)
  | configurationLoad (q : Requester) (c : BitVec 6) (container : Bytes) (probePs : List Nat)
  | configurationFree (q : Requester) (c : BitVec 6)
  | drainSwap (q : Requester) (c : BitVec 6)
  | cutSwap (q : Requester) (c : BitVec 6)
  | swapDrainEnd (c : BitVec 6)
  | swapSwitchDone (c : BitVec 6)
  | queueSample
  | histogramClear (q : Requester) (c : BitVec 6) (value : BitVec 8)
  | siteRetire (site : BitVec 12)
  -- Chimney (13)
  | recordIntake (c : BitVec 6)
  | waitLineRelease (c : BitVec 6) (p : BitVec 3)
  | counterWaitExpired (c : BitVec 6) (p : BitVec 3)
  | replyRelease (p : BitVec 3)
  | releaseDeadlineMiss (p : BitVec 3)
  | commitPoint (reply : Nat)
  | replyEnd (reply : Nat)
  | txUnderrun (p : BitVec 3)
  | bucketRefill (c : BitVec 6) (session : Option (BitVec 6))
  | globalKill (q : Requester) (value : BitVec 8)
  | contextKill (q : Requester) (c : BitVec 6) (value : BitVec 8)
  | sessionKill (q : Requester) (session : BitVec 6) (value : BitVec 8)
  | sessionOpen (q : Requester) (session : BitVec 6)
  | sessionResume (q : Requester) (session : BitVec 6)
  | sessionClose (q : Requester) (session : BitVec 6)
  | resendReleaseWrite (q : Requester) (c : BitVec 6) (value : BitVec 16)
  | templateError (reply : Nat) (kind : ErrKind)
  -- Flue (14)
  | channelTrainingDone (f : BitVec 8)
  | channelTrainingTimeout (f : BitVec 8)
  | linkControlFlit (f : BitVec 8) (flit : Flit)
  | statusFlitTimer (f : BitVec 8)
  | crcError (f : BitVec 8) (packet : Packet)
  | replayTimeout (f : BitVec 8)
  | requestLifetimeExpired (f : BitVec 8) (entry : BitVec 10)
  | rd (f : BitVec 8) (packet : Packet)
  | wr (f : BitVec 8) (packet : Packet)
  | brd (f : BitVec 8) (packet : Packet)
  | probe (f : BitVec 8) (packet : Packet)
  | rdData (f : BitVec 8) (packet : Packet)
  | wrAck (f : BitVec 8) (packet : Packet)
  | probeAck (f : BitVec 8) (packet : Packet) (elapsedPs : Nat)
  | doorbell (f : BitVec 8) (packet : Packet)
  | htok (f : BitVec 8) (packet : Packet)
  | hcred (f : BitVec 8) (packet : Packet)
  | beacon (f : BitVec 8) (packet : Packet)
  | faultBeaconLine (heldNs : Nat)
  | reachabilityProbe
  -- counters (15)
  | increment (q : Requester) (c : BitVec 6) (amount : BitVec 64)
  | handSet (q : Requester) (value : BitVec 64)
  | counterUpdate
  -- gauges, power, resets (02, 18)
  | gaugeWindow (gauge : Nat) (read : GaugeRead)
  | droopFlag (gauge : Nat) (ratio : BitVec 16)
  | supplyEvaluation (domain : Nat)
  | thermalRead (tj : List Int)
  | thermalTrip (domain : Nat)
  | powerSample (average : Nat) (domains : List Nat)
  | domainOn (q : Requester)
  | domainBank (q : Requester)
  | domainCold (q : Requester)
  | domainTransitionDone (domain : Nat) (selfTestOk : Bool)
  | gateDelayExpired (domain : Nat)
  | watchdogExpired
  | stokerFault
  | warmReset (q : Requester)
  | warmResetWithUpdate (q : Requester) (container : Option Bytes)
  | blkRst (lowNs : Nat)
  | powerOn (keyHash : Bytes) (failedUnits : List (BitVec 8 × Nat)) (failedDomains : List Nat) (repairs : Nat)
  | powerLoss (lowNs : Nat)
  | warmSequence (firmware : Option Bytes) (images : List (BitVec 6 × Option Bytes × List Nat)) (nodes : List (BitVec 16 × BitVec 16))
  -- recovery stores (16), P store (17)
  | dumpRelease (q : Requester) (value : BitVec 8)
  | logMillisecondEnd
  | pValueStoreDone (stored : Bool)
  -- CAN FD (17)
  | startRemoteNode (node : BitVec 8)
  | stopRemoteNode (node : BitVec 8)
  | enterPreOperational (node : BitVec 8)
  | resetNode (node : BitVec 8)
  | resetCommunication (node : BitVec 8)
  | heartbeatTimer
  | emcyInhibitEnd
  | usdoUpload (node : BitVec 7) (index : BitVec 16) (sub : BitVec 8) (part : UsdoUp)
  | usdoDownload (node : BitVec 7) (index : BitVec 16) (sub : BitVec 8) (part : UsdoDown) (env : Env)
  | usdoAbort (node : BitVec 7)
  | transferTimeout (q : Requester)
  -- mailbox and TAP (17)
  | mailboxUpload (f : BitVec 8) (packet : Packet)
  | mailboxDownload (f : BitVec 8) (packet : Packet) (env : Env)
  | mailboxAbort (f : BitVec 8) (packet : Packet)
  | uploadSnapshotTimeout
  | lockWaitTimeout (q : Requester)
  | idcode
  | tapMbox (frame : Bytes) (env : Env)
  | bypass (code : BitVec 8)
  | tapReset (lowNs : Nat)
  | grantWrite (q : Requester) (grant : Bytes)
  | fragmentVerified (env : Env)
  | objectWrite (q : Requester) (index : BitVec 16) (sub : BitVec 8) (data : Bytes) (env : Env)
  -- rows the table adds at its end
  | channelLinkLost (f : BitVec 8)
  | localRelayoutDone
  | templateRewriteDone (c : BitVec 6) (template : BitVec 12)
  | firmwareContainerReceived (firmware : Bytes)
  deriving DecidableEq, Repr

end Sys2Proof
end

