-- ==== Sys2Proof/Config.lean ====
section
/-! DEFINITION. What the spec leaves open: free values. Each is a constant without a body, so that no proof can see what
it is and every claim holds whatever it is. -/

namespace Sys2Proof.Config

/-- N_c, the count of a slow-process gauge at the slow corner, that a firmware image carries (R42 gives neither its value nor
its place in the image): a free value by image (notes/assumptions/44). -/
opaque cornerCount : List (BitVec 8) → Nat

/-- Whether a gauge's quotient N_c / N that is no whole number of thousandths is rounded up (R42 gives no rounding): a free
choice by N_c and N (notes/assumptions/44). -/
opaque gaugeRoundsUp : Nat → Nat → Bool

/-- The D that a gauge publishes whose quotient is not a 16-bit number of thousandths, a count of 0 among them (R42 states
none): a free value by N_c and N (notes/assumptions/44). -/
opaque gaugeBeyond : Nat → Nat → BitVec 16

/-- The rate word that a PTP servo asks for at its k-th reckoning (R145 bounds it, nothing gives it): a free value
(notes/assumptions/4). -/
opaque servoRate : Nat → Int

/-- The last bits of a special function whose exact value the enclosure of Machine/Sfu.lean does not separate from a
rounding boundary; R358 fixes the value, and no operand is known that needs it (notes/assumptions/13). -/
opaque sfuTie : Nat → BitVec 32 → BitVec 32

/-- The element bits of a feature above the context's NFEAT, which reads as missing and has no kind of its own (R220): a
free value by feature index (notes/assumptions/4). -/
opaque absentFeature : Nat → BitVec 32

/-- The stage code of a ledger booking in a context dump (R500 gives no codes): a free value by booking number
(notes/assumptions/4). -/
opaque ledgerStage : Nat → BitVec 16

/-- The bytes of section 0x0008 of a block dump, Stoker registers and watchdog state, whose layout and length the spec does
not give (R500): a free value by reading (notes/assumptions/4). -/
opaque stokerState : Nat → List (BitVec 8)

/-- The log entry of a Wait ticket write: its event, A and B. R430 says that the write is logged, and R506 gives no event for
it: a free value by entry (notes/assumptions/4). -/
opaque ticketEntry : Nat → BitVec 16 × BitVec 64 × BitVec 64

end Sys2Proof.Config
end

