-- ==== Sys2Proof/Machine/Types.lean ====
section
/-! DEFINITION. The plain data that State is made of: the parsed forms of images (05, 07, 08, 09, 11, 12, 13), and the
records of work in flight. Every number that the spec gives a field stands under the spec's own name for it. -/

namespace Sys2Proof.Machine

/-! ### Images -/

/-- A field entry of a layout (R177). -/
structure FieldEntry where
  off : Nat
  kind : Nat
  width : Nat
  be : Bool
  used : Bool
  uns : Bool
  shift : Nat
  count : Nat
  deriving DecidableEq, Repr

/-- A layout descriptor (R176), with its bytes as readable at CB+0x02:01–08. -/
structure Layout where
  valid : Bool
  verified : Bool
  lsrc : Nat
  filter : Nat
  typeOff : Nat
  type : Byte
  pkind : Nat
  pindex : Nat
  symf : Nat
  pskip : Nat
  lpsize : Nat
  lpbe : Bool
  lpinc : Bool
  flen : Nat
  fields : List FieldEntry
  raw : Bytes
  deriving DecidableEq, Repr

/-- A state slot descriptor (R239). -/
structure SlotDesc where
  kind : Nat
  fmt : Nat
  srcf : Nat
  lmask : Nat
  param : Nat
  deriving DecidableEq, Repr

/-- A feature entry (R240). -/
structure FeatEntry where
  src : Nat
  sel : Nat
  lmask : Nat
  out : Nat
  p0 : Nat
  p1 : Nat
  a : BitVec 32
  b : BitVec 32
  deriving DecidableEq, Repr

/-- A feature image (R238). -/
structure FeatImage where
  slots : List SlotDesc
  feats : List FeatEntry
  events : List Nat
  edges : List (BitVec 64)
  raw : Bytes
  deriving DecidableEq, Repr

/-- A rule entry of an ensemble (R253). -/
structure Rule where
  op : Nat
  testA : Byte
  testB : Byte
  thrA : BitVec 32
  thrB : BitVec 32
  choice : BitVec 16
  deriving DecidableEq, Repr

/-- A tree record (R247): node words in breadth-first order and leaf vectors from left to right. -/
structure Tree where
  nodes : List (BitVec 32)
  leaves : List (List (BitVec 16))
  deriving DecidableEq, Repr

/-- An ensemble record with its trees (R252); `raw` is the 288-byte record. -/
structure Ensemble where
  depth : Nat
  lw : Nat
  argmax : Bool
  ntrees : Nat
  pw : Nat
  bias : List (BitVec 32)
  toff : Nat
  rules : List Rule
  trees : List Tree
  raw : Bytes
  deriving DecidableEq, Repr

/-- The state of an ensemble slot (R265). -/
inductive EnsState where
  | empty
  | loaded
  | active
  | draining
  | unplaced
  deriving DecidableEq, Repr

/-- An ensemble slot of a context: its ensemble, the slice and the first word of each tree's contiguous run (R247), the pass
width W it was placed with (R255), whether a record of it is being reloaded or placed again (R270, R271), and the Garnet
domains that have lost the words of its trees and have not taken them from the image again (R272). -/
structure EnsSlot where
  state : EnsState
  ens : Option Ensemble
  place : List (Nat × Nat)
  width : Nat
  damaged : Bool
  lost : List Nat
  deriving DecidableEq, Repr

/-- An Opal image (R275): header fields, feedback map and tensor part. -/
structure OpalImage where
  gelu : Bool
  nlayer : Nat
  hlog2 : Nat
  dblk : Nat
  nout : Nat
  window : Nat
  fres : Nat
  wfmt : Nat
  kvfmt : Nat
  elmask : Nat
  nscr : Nat
  repl : Nat
  eps : BitVec 32
  header : Bytes
  feedback : Bytes
  tensor : Bytes
  deriving DecidableEq, Repr

/-- A unit entry (R340). -/
structure UnitEntry where
  kind : Nat
  op : Nat
  flags : Byte
  initn : Nat
  mode : Nat
  count : Nat
  sel : Nat
  imm : BitVec 64
  raw : Bytes
  deriving DecidableEq, Repr

/-- A circuit entry (R374). -/
structure Circuit where
  src : Nat
  out : Nat
  dst : Nat
  inp : Nat
  slot : Nat
  width : Nat
  nhop : Nat
  qx : Nat
  route : BitVec 64
  deriving DecidableEq, Repr

/-- A spread entry (R397). -/
structure Spread where
  site : Nat
  circ : Nat
  program : Nat
  epoch : Nat
  x : Nat
  y : Nat
  hop : Nat
  rcirc : Nat
  cred : Nat
  rtime : Nat
  rsrc : Nat
  tpm : Nat
  deriving DecidableEq, Repr

/-- A memory descriptor (R376). -/
structure MemDesc where
  site : Nat
  off : Nat
  len : Nat
  dst : Nat
  deriving DecidableEq, Repr

/-- A program entry of a configuration (R376). -/
structure HProgram where
  valid : Bool
  bound : Bool
  cout : Nat
  deriving DecidableEq, Repr

/-- What the loader finds for a program (R381): P_crit, II and the crossing sum in 0.1 ns, and the class code. -/
structure HFigure where
  pcrit : Nat
  ii : Nat
  xsum : Nat
  klass : Nat
  deriving DecidableEq, Repr

/-- A configuration image (R376) with the figures of its proof. -/
structure HConfig where
  progs : List HProgram
  units : List (Nat × UnitEntry)
  /-- sites whose unit record has KIND 0: their units are not used, their records are stored (R340, R383) -/
  unused : List Nat
  circuits : List Circuit
  spreads : List Spread
  mems : List MemDesc
  data : Bytes
  figures : List HFigure
  deriving DecidableEq, Repr

/-- An insertion slot entry (R407). -/
structure InsSlot where
  off : Nat
  src : Nat
  width : Nat
  be : Bool
  round : Bool
  sel : Nat
  sel2 : Nat
  deriving DecidableEq, Repr

/-- A template record (R406). -/
structure Template where
  valid : Bool
  l4 : Nat
  sess : Bool
  ucsum0 : Bool
  port : Nat
  len : Nat
  nins : Nat
  session : Nat
  qins : Nat
  pins : Nat
  kwait : Nat
  kinc : Nat
  kexp : Nat
  kamt : Nat
  kpoint : Nat
  kstep : Nat
  slots : List InsSlot
  body : Bytes
  deriving DecidableEq, Repr

/-- A Chimney image (R405). -/
structure ChimImage where
  templates : List Template
  sessmask : BitVec 64
  rent : Nat
  raw : Bytes
  deriving DecidableEq, Repr

/-- A context image, part by part (R535). -/
structure Image where
  id : BitVec 32
  kb : Nat
  ranges : List (Nat × Nat)
  filters : List (Nat × Nat × BitVec 256)
  layouts : List (Nat × Layout)
  feat : FeatImage
  progs : Bytes
  ensembles : List Ensemble
  opal : Option OpalImage
  hearth : Option HConfig
  chim : ChimImage
  counters : Option (Nat × Nat)
  deriving DecidableEq, Repr

/-! ### Quartz -/

/-- Discipline session states (R138). -/
inductive Session where
  | idle
  | armed
  | running
  deriving DecidableEq, Repr

/-- A Step by Δ in 2^-16 ns, or a Set time to T ns, accepted and not yet applied (R140). -/
inductive PendingStep where
  | by (delta : Int)
  | dest (target : Nat)
  deriving DecidableEq, Repr

/-- A time base (R131, R135, R136, R138). -/
structure Base where
  n : BitVec 32
  f : BitVec 16
  g : BitVec 24
  /-- residue below the internal fraction, in 2^-40 / (5 · 10^9) ns (notes/assumptions/7) -/
  residue : Nat
  rho : Int
  u : BitVec 32
  pendingWrap : Bool
  wrapRaised : Bool
  session : Session
  step : Option PendingStep
  /-- 0 locked, 1 acquiring, 2 lost (R134) -/
  refStatus : Nat
  /-- by how much the PLL's clock is off its setting, in parts per billion: by as much as the reference it last locked (R134) -/
  ppb : Int
  deriving DecidableEq, Repr

/-- A master that a PTP instance has heard (R143, R158): the port, its data, how it is reached, when it was last heard on the
model's own clock, and whether it is qualified. -/
structure Foreign where
  port : Nat
  data : PtpData
  peer : Option PtpPeer
  last : Time
  qualified : Bool
  deriving DecidableEq, Repr

/-- The PTP instance of a base (R143–R145, R158). -/
structure Ptp where
  overs : Nat
  /-- the masters heard, and the one that the instance follows -/
  foreign : List Foreign
  parent : Option Foreign
  /-- origin and ingress of the last Sync, in 2^-16 ns -/
  lastSync : Option (Int × Int)
  /-- last measured master-to-slave difference -/
  t21 : Int
  meanDelay : Int
  lostSyncs : Nat
  /-- sequence number of the instance's next message, and of the Delay_Req that waits for its answer -/
  seq : BitVec 16
  delayReq : Option (BitVec 16)
  deriving DecidableEq, Repr

/-- A pulse output (R152–R154): the base time of its next leading edge, and whether a pulse is on the pin. -/
structure Pulse where
  next : Option Nat
  high : Bool
  deriving DecidableEq, Repr

/-- An entry of a capture FIFO (R155). -/
structure CapEntry where
  e : Nat
  f : BitVec 16
  step : BitVec 8
  rising : Bool
  deriving DecidableEq, Repr

/-- A capture input (R155, R156): its FIFO, and the elapsed time of its last captured edge. -/
structure Capture where
  fifo : List CapEntry
  last : Option Time
  deriving DecidableEq, Repr

/-! ### Ports, frames and rings -/

/-- Link state codes of 0x2110+p:01 (R126). -/
inductive Link where
  | down
  | negotiating
  | up10
  | up25
  deriving DecidableEq, Repr

/-- A gate control entry (R115). -/
structure GateEntry where
  op : Nat
  gates : Byte
  interval : Nat
  deriving DecidableEq, Repr

/-- A change of the gate list waiting for its base time (R118). -/
structure GateChange where
  list : List GateEntry
  base : Nat
  cycle : Nat
  /-- base time of the switch, reckoned when the change was written -/
  start : Nat
  deriving DecidableEq, Repr

/-- The running gate list of a port (R116): the list, its times, the place in it and the gates now in force. An empty list
holds the gates of 0x2130+p:06. -/
structure GateList where
  list : List GateEntry
  base : Nat
  cycle : Nat
  pos : Nat
  gates : Byte
  /-- base time of the cycle start from which the list runs: until then the gates stand as they are (R118, R119) -/
  since : Nat
  held : Bool
  deriving DecidableEq, Repr

/-- A frame being transmitted from a ring or firmware queue (R110–R113, R120). -/
structure TxNow where
  frame : TxFrame
  /-- its bytes as they leave, padded and with FCS (R111) -/
  wire : Bytes
  /-- the bytes of it that earlier fragments have carried, and how many fragments there were (R120, R121) -/
  sent : Nat
  fragments : Nat
  /-- when the preamble of the fragment now leaving starts, on the model's own clock -/
  start : Time
  stamp : List (BitVec 32 × BitVec 16)
  preempted : Bool
  lost : Bool
  deriving DecidableEq, Repr

/-- A port (R78–R130). -/
structure Port where
  link : Link
  fec : Bool
  /-- settings in force since the last bring-up (R125): preemption enable, addFragSize, verify time -/
  penable : Nat
  frag : Nat
  verifyMs : Nat
  verifyTries : Nat
  /-- the frame in reception, and the preemptable frame that an express one interrupts (R91) -/
  rx : Option Nat
  held : Option Nat
  tx : Option TxNow
  /-- the last source served in each class (R112) -/
  served : Tab Nat
  filters : Tab (BitVec 256)
  hits : Tab Nat
  /-- indices reserved by a context being loaded (R99) -/
  reserved : List (Nat × Nat)
  adminList : List GateEntry
  oper : GateList
  change : Option GateChange
  ipid : BitVec 16
  /-- the Chimney queue: reply numbers in release order (R420) -/
  queue : List Nat
  /-- the replies released and not yet ended, in release order -/
  sending : List Nat
  /-- the firmware transmit queue (R113) -/
  fwQueue : List TxFrame
  /-- from when the wire is free for what leaves next, the inter-frame gap included, on the model's own clock -/
  idleAt : Time
  deriving DecidableEq, Repr

/-- Cause of a BAD verdict (R85). -/
inductive BadCause where
  | oversize
  | abort
  | runt
  | code
  | fcs
  deriving DecidableEq, Repr

/-- MAC verdict (R85). -/
inductive Verdict where
  | good
  | bad (c : BadCause)
  deriving DecidableEq, Repr

/-- What the filter table made of a frame (R95): the deciding index (none: the default action) and the action. -/
inductive Steer where
  | context (c : Nat) (copy : Option Nat)
  | ring (r : Nat)
  | drop
  deriving DecidableEq, Repr

/-- An arrival of which only a later TYPE byte says what it was (R180, R184): bytes of the frame that had arrived, its ingress
times on the four bases, and what a symbol that ended there found in the table as it then stood. -/
structure Arrival where
  bytes : Nat
  times : List Time
  instr : Option Nat
  deriving DecidableEq, Repr

/-- Where the Grate lane stands in a frame (R173, R174). -/
structure Lane where
  /-- offset of the first message (R173) -/
  first : Nat
  payloadEnd : Option Nat
  fEnd : Option Nat
  /-- offset of the next message, and the message created there by its symbol lookup -/
  next : Nat
  open_ : Option Nat
  /-- parsing of the frame has ended -/
  stopped : Bool
  /-- arrivals at the next message while its TYPE byte is still to come (R180, R184) -/
  arrived : List Arrival
  deriving DecidableEq, Repr

/-- A received frame, held in its port's staging buffer until every chain of it is written (R90, R587). -/
structure Frame where
  port : Nat
  express : Bool
  bytes : Bytes
  stamps : List (BitVec 32 × BitVec 16)
  /-- the filter table as it stood at the first destination byte (R98) -/
  table : Tab (BitVec 256)
  addressed : Bool
  /-- L_max and the default action of its port as they stood when it started (R125) -/
  lmax : Nat
  dflt : Nat
  steer : Option (Option Nat × Steer)
  lane : Option Lane
  headerError : Bool
  /-- the frame has ended: its length with FCS -/
  ended : Option Nat
  cut : Option BadCause
  codeError : Bool
  mac : Option Verdict
  /-- effective verdict (R187): true for GOOD -/
  eff : Option Bool
  messages : List Nat
  updates : Nat
  logged : Bool
  /-- delivered whole to the decline ring with reason 7 (R493) -/
  whole : Bool
  /-- a length mismatch and a malformed frame are counted once (R174, R187) -/
  mismatch : Bool
  malformed : Bool
  /-- bytes of it could not be kept in the staging buffer (R587) -/
  lost : Bool
  /-- the chains that have become due (R587) -/
  due : List ChainKind
  deriving DecidableEq, Repr

/-- A chain waiting for its ring (R587). -/
structure Chain where
  frame : Nat
  kind : ChainKind
  /-- a declined (reason) or missed message, its offset and length -/
  decl : Option Nat
  miss : Bool
  moff : Nat
  mlen : Nat
  tag : Option (BitVec 14)
  /-- its bytes could not be kept in the staging buffer (R587) -/
  lost : Bool
  deriving DecidableEq, Repr

/-- Live state of a ring beside its dictionary object (R103, R106, R109, R587). -/
structure Ring where
  chains : List Chain
  unnotified : Nat
  /-- a drop has been logged since the last delivered chain or configuration write (R106) -/
  dropLogged : Bool
  deriving DecidableEq, Repr

/-! ### Messages and admission -/

/-- Latency classes (R7). -/
inductive Klass where
  | a
  | b
  | c
  | u
  deriving DecidableEq, Repr

/-- Program kinds (R7). -/
inductive PKind where
  | t
  | s
  | h
  deriving DecidableEq, Repr

/-- What admission made of a message (R61, R186). -/
inductive Fate where
  | waiting
  | miss
  | admitted
  | declined (reason : Nat)
  deriving DecidableEq, Repr

/-- An Opal slot (R234). -/
structure Slot where
  vals : List (BitVec 16)
  seq : BitVec 32
  stamp : BitVec 32
  old : Bool
  published : Bool
  deriving DecidableEq, Repr

/-- A decision record (R264, R370). -/
structure Record where
  choice : BitVec 16
  rule : Nat
  scores : List (BitVec 32)
  flags : Byte
  deriving DecidableEq, Repr

/-- The configuration that an H program's message runs on: the one that ran at its admission, the one that the swap then in
progress brings in, or none any more, its record discarded (R386, R388). -/
inductive HearthSide where
  | running
  | incoming
  | cut
  deriving DecidableEq, Repr

/-- A message in flight: what the Grate, admission, the feature stage and the engines hold of it. -/
structure Msg where
  frame : Nat
  port : Nat
  ctx : Nat
  tag : BitVec 14
  layout : Nat
  moff : Nat
  mlen : Nat
  kind : PKind
  pindex : Nat
  /-- the 48 field words with present bits (R178) -/
  fields : List (Option (BitVec 64))
  symbol : Option (BitVec 64)
  looked : Bool
  instr : Option Nat
  tdp : Option Time
  /-- its decision point as stamped on the four bases (R147) -/
  dpStamps : List Time
  ndp : BitVec 32
  fate : Fate
  klass : Klass
  /-- the ensemble slot active at its admission (R267) -/
  ens : Nat
  /-- the configuration that an H program's message runs on (R386) -/
  side : HearthSide
  deadline : Option Time
  /-- hold delay: by how much the hold passes t_dp + B_pub (R65) -/
  hold : Time
  /-- predicted arrival of the last FCS bit, where the frame end is predicted (R191) -/
  tEnd : Option Time
  /-- predicted arrival at the Chimney intake -/
  arrive : Time
  bound : Time
  accessed : Bool
  seq : Option (BitVec 32)
  /-- its event has been handed to Opal (R237) -/
  issued : Bool
  slot : Slot
  /-- its instrument's row as read in its state access (R230) -/
  row : List (Nat × BitVec 64)
  event : List (BitVec 32 × Bool)
  features : List (BitVec 32 × Bool)
  riskRef : Option (BitVec 64)
  /-- an own Opal step is booked and has not published (R288) -/
  awaitStep : Bool
  /-- the lane, predicted start, placement and placement version booked for its own step (R290, R322) -/
  lane : Nat
  stepStart : Time
  place : Nat
  ver : BitVec 16
  pass : Nat
  /-- the pass width of its passes, once the first has left (R255) -/
  width : Nat
  sums : List (BitVec 32)
  flags : Byte
  record : Option Record
  /-- its record has entered, or a no-send has been recorded for it (R403) -/
  entered : Bool
  /-- it is delivered: its first bit has left, or a no-send is recorded (R68) -/
  delivered : Bool
  deriving DecidableEq, Repr

/-- An arbitration group (R583): when it opened and the items it holds, in order of arrival. -/
structure Group where
  opened : Time
  items : List Nat
  deriving DecidableEq, Repr

/-- The admission ledger (R62, R290): free-at times on the admission base. -/
structure Ledger where
  garnet : Time
  lanes : Tab Time
  hearth : Tab Time
  egress : Tab Time
  order : Tab Time
  instrs : Tab Time
  deriving DecidableEq, Repr

/-- A decision whose arbitration group may still be open (R583): its message, when its group opened, and the ledger as it
stood before the decision. -/
structure TakenDecision where
  msg : Nat
  opened : Time
  before : Ledger
  deriving DecidableEq, Repr

/-! ### Opal and Mantel -/

/-- A placement directory entry (R319). -/
structure Dir where
  pl : Nat
  lock : Bool
  mig : Bool
  ver : BitVec 16
  nseq : BitVec 32
  addr : BitVec 34
  region : BitVec 6
  deriving DecidableEq, Repr

/-- One row of a cache: key and value element bytes, then their scale bytes (R283). -/
structure KVRow where
  k : Bytes
  v : Bytes
  ks : Bytes
  vs : Bytes
  deriving DecidableEq, Repr

/-- An instrument cache (R283): NEXT, the positions that are VALID, and the rows by layer · W_a + position. Its header carries a
context tag (R14), which has no place among the 256 bytes of R283. -/
structure Cache where
  tag : BitVec 14
  next : BitVec 32
  valid : List Nat
  rows : Tab KVRow
  deriving DecidableEq, Repr

/-- An Opal step from its booking to its publication (R284, R288). -/
structure OStep where
  ctx : Nat
  tag : BitVec 14
  instr : Nat
  seq : BitVec 32
  /-- the S message whose own step it is -/
  own : Option Nat
  lane : Nat
  place : Nat
  ver : BitVec 16
  start : Time
  deadline : Option Time
  event : List (BitVec 32 × Bool)
  running : Bool
  /-- the weights that were current when it started (R301) -/
  weights : Option OpalImage
  /-- the header as read: NEXT and the VALID positions (R284) -/
  next : BitVec 32
  valid : List Nat
  /-- how often the weights of its context had been switched then, which tells one copy from another (R299, R301) -/
  wver : Nat
  /-- rows, by layer and position, that are left out of its window as uncorrectable (R302) -/
  bad : List (Nat × Nat)
  /-- the rows of its window, by layer · W_a + position, as they stood at its start -/
  window : Tab KVRow
  /-- output values, new rows by layer, flags and flushed elements -/
  vals : List (BitVec 16)
  rows : List KVRow
  nanRow : Bool
  flags : Byte
  flushed : Nat
  deriving DecidableEq, Repr

/-- Rollout status codes (R298). -/
inductive RollState where
  | idle
  | running
  | done
  | overtaken
  | abandoned
  deriving DecidableEq, Repr

/-- A rollout in its scratch slot (R295, R296); while `waits` holds steps and messages, the fork waits for those steps of the
instrument, and for the own steps of those messages. -/
structure Rollout where
  state : RollState
  instr : Nat
  waits : Option (List Nat × List Nat)
  /-- the rollout lane of its latest step (R298) -/
  lane : Option Nat
  /-- the reads of its next step have been sent, and the rows that they could not give (R302, R318) -/
  reading : Bool
  bad : List (Nat × Nat)
  steps : Nat
  done : Nat
  sf : BitVec 32
  valid : List Nat
  kctr : Nat
  first : List (BitVec 16)
  results : List (List (BitVec 16))
  rows : List (List KVRow)
  deriving DecidableEq, Repr

/-- The phases of a migration (R323). -/
inductive MigPhase where
  | copying
  | locking
  | locked
  | switched
  deriving DecidableEq, Repr

/-- A migration in progress (R323, R324). -/
structure Migration where
  ctx : Nat
  dest : Nat
  region : BitVec 6
  addr : BitVec 34
  sc : BitVec 32
  copies : Nat
  phase : MigPhase
  /-- positions with a row, and whether a header, that did not reach the destination (R317, R318) -/
  bad : List Nat
  badHeader : Bool
  deriving DecidableEq, Repr

/-! ### Hearth -/

/-- A token (R338). -/
structure Token where
  tag : BitVec 14
  p : Bool
  data : BitVec 64
  deriving DecidableEq, Repr

/-- State of a configuration store slot (R383). -/
inductive HState where
  | empty
  | stored
  | active
  | draining
  deriving DecidableEq, Repr

/-- A slot of the configuration store (R383): owner, configuration, and whether it came from the context image (R400). -/
structure HSlot where
  state : HState
  owner : Nat
  cfg : Option HConfig
  fromImage : Bool
  deriving DecidableEq, Repr

/-- A swap in progress (R385–R388). -/
structure Swap where
  dest : Option Nat
  drain : Bool
  switching : Bool
  timedOut : Bool
  deriving DecidableEq, Repr

/-- The running configuration of a context: queues, unit memories and counters of its sites. -/
structure HRun where
  /-- input queues by site · 4 + input -/
  queues : Tab (List Token)
  spill : Tab (List Token)
  /-- DOT and ACC: the partial sums with their levels (R350), the terms taken and the AND of the P bits -/
  sums : Tab (List (Nat × BitVec 32))
  taken : Tab Nat
  andP : Tab Bool
  /-- IDX, REP, STREAM: tokens already emitted for the trigger at the head of A -/
  emitted : Tab Nat
  /-- MERGE: consecutive feedback takes (R357) -/
  takes : Tab Nat
  /-- STB: elements of the block now filling and its index within the run -/
  block : Tab (List (BitVec 32))
  runAt : Tab Nat
  runBase : Tab (BitVec 64)
  /-- MEM and SFU bytes by site · 16,384 + offset -/
  mem : Tab (BitVec 8)
  /-- messages whose token a FIN site has not yet emitted, by site (R368) -/
  fins : Tab (List Nat)
  /-- admitted messages without a record, oldest first, by program (R370) -/
  open_ : Tab (List Nat)
  /-- messages that have left the feature stage for the configuration that a swap brings in, oldest first (R386) -/
  waiting : List Nat
  credits : Tab Nat
  fli : Tab (List Token)
  /-- parked KWAIT units: counter and expected value by site (R469) -/
  parked : Tab (Nat × BitVec 64)
  released : List Nat
  bins : Tab Nat
  swap : Option Swap
  deriving DecidableEq, Repr

/-! ### Chimney -/

/-- Where a reply stands in the Chimney (R418–R422). -/
inductive RState where
  | waiting
  | queued
  /-- suppressed as late; its no-send is recorded at its deadline (R67) -/
  | late
  | sending
  | ended
  deriving DecidableEq, Repr

/-- A reply from its composition to its end. -/
structure Reply where
  msg : Nat
  ctx : Nat
  tag : BitVec 14
  frame : Nat
  layout : Nat
  template : Nat
  port : Nat
  klass : Klass
  body : Bytes
  qty : BitVec 64
  price : BitVec 64
  deadline : Option Time
  hold : Time
  verified : Bool
  tdp : Time
  state : RState
  /-- when it entered its port's queue, on the admission base (R583) -/
  entered : Time
  /-- it heads its wait line, and the comparison has not held yet (R470) -/
  parked : Bool
  start : Time
  /-- true FCS directed at the commit point (R422) -/
  commit : Option Bool
  torn : Bool
  underrun : Bool
  resend : Option Nat
  seqno : BitVec 32
  deriving DecidableEq, Repr

/-- A resend ring entry (R426). -/
structure Resend where
  seq : BitVec 32
  session : Nat
  status : Nat
  e : Nat
  msgno : BitVec 32
  frame : Bytes
  deriving DecidableEq, Repr

/-- A risk bucket (R415). -/
structure Bucket where
  tokens : Nat
  deriving DecidableEq, Repr

/-! ### Flue -/

/-- Channel states (R436). -/
inductive ChanState where
  | down
  | training
  | up
  | retired
  deriving DecidableEq, Repr

/-- What an outstanding request was sent for (R452). -/
inductive Purpose where
  /-- a write of the row of position `pos`, or of the header, at window address `addr` -/
  | mantelRow (instr pos addr : Nat)
  | mantelHeader (instr addr : Nat)
  /-- a read for a step, or for a rollout step: of the row of a layer and position, or of the header -/
  | mantelRead (step : Nat) (row : Option (Nat × Nat)) (addr : Nat)
  | rolloutRead (c slot : Nat) (row : Option (Nat × Nat)) (addr : Nat)
  /-- a read or write of a migration: of the rows of a position, or of the header -/
  | migrate (instr : Nat) (pos : Option Nat) (addr : Nat)
  | ring (r : Nat)
  | staging
  | probeTo (x y : BitVec 16) (limitPs : Nat)
  deriving DecidableEq, Repr

/-- An outstanding-request entry (R452). -/
structure Req where
  type : Byte
  tag : Option (BitVec 14)
  arg : BitVec 64
  purpose : Purpose
  /-- the node that it names, and the bytes it reads or writes there from the OFFSET of its argument -/
  dx : Nat
  dy : Nat
  len : Nat
  /-- when it was sent, on the model's own clock -/
  sentAt : Time
  deriving DecidableEq, Repr

/-- A packet that waits for its link (R438, R446): its bytes with SEQ, RID and CRC still open, and the
outstanding-request entry it needs. -/
structure WaitPkt where
  bytes : Bytes
  req : Option Req
  deriving DecidableEq, Repr

/-- A request or notification that waits for a place in the Mantel list, because earlier traffic to its line or of its ring
is still on another channel, or the list is empty (R316, R445): its list position, and what is to be sent. -/
structure HeldPkt where
  pos : Nat
  pkt : WaitPkt
  deriving DecidableEq, Repr

/-- A Flue channel (R436–R443, R452). -/
structure Chan where
  state : ChanState
  x : BitVec 16
  y : BitVec 16
  sent : Nat
  received : Nat
  crcErrors : Nat
  replays : Nat
  txSeq : BitVec 16
  rxSeq : BitVec 16
  /-- the replay buffer: SEQ, times replayed, packet (R441, R442) -/
  unacked : List (BitVec 16 × Nat × Bytes)
  /-- a packet has been lost and a NAK sent; packets are discarded until the expected SEQ (R441) -/
  nak : Bool
  /-- the far end's CRn counts as last received, and ours (R437) -/
  credIn : List (BitVec 16)
  freed : List (BitVec 16)
  /-- flits sent on each VC since Up, and packets waiting for credits, room or the link (R438, R441) -/
  flits : List (BitVec 16)
  waiting : List WaitPkt
  /-- SEQs that a replay has still to send again (R442) -/
  again : List (BitVec 16)
  outstanding : Tab (Option Req)
  reuse : Tab Nat
  /-- the kind of traffic last served in the round robin of R315 and R446 -/
  turn : Nat
  deriving DecidableEq, Repr

/-! ### Counters -/

/-- An increment requested and not yet performed (R466). -/
structure IncReq where
  counter : Nat
  amount : BitVec 64
  tag : BitVec 14
  deriving DecidableEq, Repr

/-! ### Recovery -/

/-- A Soot log entry (R503); `tag` is none for CTXV 0. -/
structure Soot where
  e : BitVec 64
  seq : BitVec 32
  event : BitVec 16
  tag : Option (BitVec 14)
  a : BitVec 64
  b : BitVec 64
  deriving DecidableEq, Repr

/-- Where Loading, a teardown or Unloading stands (R484). -/
inductive Phase where
  /-- waiting to advance the generation (step 2, R17) -/
  | awaitGen
  /-- the image is being read and written (Loading) -/
  | reading
  /-- engines purge (steps 3 and 4) -/
  | purging
  /-- the dump is written and state is being rewritten (steps 5 and 6) -/
  | rewriting
  deriving DecidableEq, Repr

/-- An escalation of a teardown (R491): the domain, the engine that did not report, the step reached, and whether the
domain is being cycled for it. -/
structure Escalation where
  domain : Nat
  engine : Nat
  step : Nat
  busy : Bool
  deriving DecidableEq, Repr

/-- The teardown or load of a context in progress. -/
structure Teardown where
  phase : Phase
  t0 : Nat
  cause : BitVec 16
  genOld : BitVec 8
  unloadNext : Bool
  dump : Nat
  logSeq : BitVec 32
  /-- queue depths of A, B and C by site, snapshotted at step 1 (R484) -/
  depths : List (Nat × Nat × Nat × Nat)
  /-- ledger bookings of the undelivered messages at step 1: free-at N, deadline N, program (R500) -/
  bookings : List (BitVec 32 × BitVec 32 × Nat)
  /-- ns of the model's own clock at t0 -/
  began : Time
  /-- the domains that it escalates on (R491) -/
  escalations : List Escalation
  deriving DecidableEq, Repr

/-- A scratchpad sample (R501). -/
structure Sample where
  n : BitVec 32
  kind : Nat
  prog : Nat
  instr : Nat
  ref : BitVec 64
  data : Bytes
  deriving DecidableEq, Repr

/-- An Ash pit slot (R499). -/
structure Dump where
  bytes : Bytes
  held : Bool
  deriving DecidableEq, Repr

/-! ### Power -/

/-- Domain states (R545, R568). -/
inductive DomState where
  | on
  | banked
  | cold
  deriving DecidableEq, Repr

/-- A power domain (R544–R552, R568). -/
structure Domain where
  state : DomState
  /-- a change under way, and a request waiting for it (R545) -/
  changing : Option DomState
  queued : Option DomState
  retired : Bool
  vdd : Nat
  tj : Int
  power : Nat
  policy : Nat
  cycles : Nat
  shutdowns : Nat
  /-- held Cold by a thermal shutdown (R589) -/
  thermal : Bool
  warned : Bool
  /-- consecutive sensor reads at or above 105 °C, ten microseconds apart (R550) -/
  hotReads : Nat
  /-- its last gauge readings, newest first, at most 20 windows (R549) -/
  windows : List Nat
  /-- the last reading of its VDD_CORE monitor, in mV (R71) -/
  monitor : Nat
  /-- consecutive clear readings of each of its gauges toward reopening (R71): live trip, corner breach, return to On -/
  clearLive : Tab Nat
  clearBreach : Tab Nat
  clearOn : Tab Nat
  /-- On and reopened (R71) -/
  open_ : Bool
  /-- evaluations, 20 µs apart, until the supply may be lowered again (R549) -/
  lowerWait : Nat
  /-- the supply ceiling has been logged since the trip began (R72) -/
  ceiling : Bool
  /-- the next return to On counts as a partition cycle (R555) -/
  cycle : Bool
  deriving DecidableEq, Repr

/-! ### Management -/

/-- The three paths to the dictionary. -/
inductive Path where
  | can
  | mailbox
  | tap
  deriving DecidableEq, Repr

/-- An open segmented transfer of a path (R520, R531). -/
structure Transfer where
  index : Nat
  sub : Nat
  who : Requester
  total : Nat
  data : Bytes
  upload : Bool
  deriving DecidableEq, Repr

/-- A fragment staged and awaiting verification (R537): the slot selected when its last byte was accepted, and for a
fragment of the mailbox the channel and packet that its deferred response answers. -/
structure Staged where
  who : Requester
  index : Nat
  sub : Nat
  sel : Nat
  data : Bytes
  mailbox : Option (Nat × Bytes)
  deriving DecidableEq, Repr

/-- NMT states (R523, R524). -/
inductive Nmt where
  | bootUp
  | stopped
  | operational
  | preOperational
  deriving DecidableEq, Repr

/-- An EMCY message (R525). -/
structure Emcy where
  code : BitVec 16
  reg : Byte
  man : Bytes
  deriving DecidableEq, Repr

/-- A P value on its way to, or in, the wafer controller's store (R517): object, the selection it was written
under, the bytes. -/
structure PVal where
  index : Nat
  sub : Nat
  sel : Nat
  data : Bytes
  deriving DecidableEq, Repr

/-- Abilities that a port advertises in auto-negotiation (R79). -/
inductive Ability where
  | cr25G
  | crS25G
  deriving DecidableEq, Repr

/-- What the block puts on its pins and links. -/
inductive Output where
  /-- the answer to a dictionary request: abort code 0 and data, or an abort code -/
  | response (q : Requester) (index sub : Nat) (abort : BitVec 32) (data : Bytes)
  /-- a reply's first bit leaves port p; its frame, padded, without FCS -/
  | replyOut (p : Nat) (reply : Nat) (frame : Bytes)
  /-- the FCS position of a reply, after `at_` bytes: its true FCS or the complement, and the four bytes (R114) -/
  | fcs (p : Nat) (reply : Nat) (isTrue : Bool) (at_ : Nat) (value : Bytes)
  /-- a frame of a ring or firmware queue starts to leave -/
  | frameStart (p : Nat) (frame : TxFrame)
  /-- fragment `k` of that frame has left: an mPacket's bytes with its mCRC (R120, R121) -/
  | fragmentOut (p : Nat) (k : Nat) (bytes : Bytes)
  /-- the frame has left: its bytes after those of its fragments, with its FCS (R111) -/
  | frameOut (p : Nat) (frame : TxFrame) (bytes : Bytes)
  /-- a verify or a respond mPacket (R120) -/
  | mPacket (p : Nat) (respond : Bool)
  /-- auto-negotiation starts with the abilities that the port advertises, requesting RS-FEC or not (R79) -/
  | negotiate (p : Nat) (abilities : List Ability) (rsFec : Bool)
  | ptp (n : Nat) (p : Nat) (timer : PtpTimer)
  | can (id : Nat) (data : Bytes)
  | packet (f : Nat) (bytes : Bytes)
  | flit (f : Nat) (bytes : Bytes)
  | pulse (k : Nat) (level : Bool)
  | firmwareEvent (ring : Nat)
  | tdo (bits : Nat) (value : Bytes)
  | bootFault
  deriving DecidableEq, Repr

/-- How far start-up has come (R561–R565). -/
inductive Boot where
  /-- in reset: BLK_RST_N low, or the always-on self-test has failed -/
  | held
  /-- self-test done; the warm sequence has not reached step 4 -/
  | cold
  /-- held at step 2 by a firmware container that failed -/
  | firmware
  /-- held in warm reset by the always-on domain's temperature (R551) -/
  | hot
  /-- steps 1 to 4 have ended: the dictionary is served, and no context is loaded by command (R564) -/
  | starting
  /-- the sequence has ended: step 7 -/
  | running
  deriving DecidableEq, Repr

end Sys2Proof.Machine
end

