-- ==== Sys2Proof/Machine/State.lean ====
section
/-! DEFINITION. The state of the block as plain data, the reasons a step can stop, and the state after reset. -/

namespace Sys2Proof.Machine

/-- Why the machine stops with a fault. -/
inductive Fault where
  /-- Raised by a command that names a unit the spec does not give the block (a power domain above 35, a Hearth
  site above 3,071, a Mantel bank above 5 or row above 8,191, a gauge above 95, an engine outside 1 to 5): no such event exists. Safe. -/
  | noSuchUnit
  deriving DecidableEq, Repr

/-- Why a command is refused. -/
inductive Refusal where
  /-- Raised by an arm of Dispatch.lean whose command has no meaning yet. Safe. -/
  | notModelled (mnemonic : String)
  deriving DecidableEq, Repr

/-- Identity, start-up and the model's own records. -/
structure Sys where
  boot : Boot
  keyHash : Bytes
  fwId : BitVec 32
  siteX : BitVec 16
  siteY : BitVec 16
  serial : BitVec 32
  serialText : Bytes
  revision : BitVec 32
  /-- the firmware image copy that the next warm reset runs (R557, R560) -/
  firmware : Bytes
  /-- N_c of the firmware image that runs (R42) -/
  cornerCount : Nat
  /-- time-base cycles since reset: the model's own clock for elapsed times (R132) -/
  cycles : Nat
  /-- E of each base at the start of the last warm reset (0x2001:05); none before the first -/
  warmAt : List Nat
  /-- the model's counter of free values taken (notes/assumptions/4) -/
  fresh : Nat
  /-- what the block has put on its pins and links, oldest first (notes/assumptions/5) -/
  out : List Output
  deriving DecidableEq, Repr

/-- Quartz (04). -/
structure Quartz where
  bases : Tab Base
  ptp : Tab Ptp
  pulses : Tab Pulse
  captures : Tab Capture
  deriving DecidableEq, Repr

/-- Ports, rings and frames (03). -/
structure Net where
  ports : Tab Port
  frames : Tab (Option Frame)
  nextFrame : Nat
  rings : Tab Ring
  /-- Stoker SRAM (R101): a memory of `Host.Cell`s; an unlisted byte reads 0 -/
  sram : List Host.Cell
  deriving DecidableEq, Repr

/-- Messages, admission and the tables the feature stage keeps (02, 05, 07). -/
structure Work where
  msgs : Tab (Option Msg)
  nextMsg : Nat
  /-- symbol table: way · 8,192 + slot gives context, symbol and instrument (R183) -/
  symbols : Tab (Option (Nat × BitVec 64 × Nat))
  /-- state rows: the valid slots of each instrument (R229) -/
  rows : Tab (List (Nat × BitVec 64))
  slots : Tab Slot
  ledger : Ledger
  /-- arbitration groups of the state tables, by context (R583) -/
  access : Tab (List Group)
  /-- the decisions of the groups that may still be open, in the order in which they are taken (R583) -/
  taken : List TakenDecision
  /-- the last OLD sweep -/
  swept : Time
  deriving DecidableEq, Repr

/-- A context slot beside its dictionary objects (01). -/
structure Ctx where
  image : Option Image
  td : Option Teardown
  /-- times of the recoveries that count toward a storm (R489) -/
  storms : List Time
  ens : Tab EnsSlot
  progs : Tab (Option Nat)
  /-- Opal images in use: current weights, shadow, and a count of switches (R301) -/
  weights : Option OpalImage
  shadow : Option OpalImage
  switches : Nat
  /-- groups whose copy is not intact (R300, R302) -/
  broken : List Nat
  rollouts : Tab Rollout
  tickets : Tab Nat
  /-- templates being rewritten (R429) -/
  damaged : List Nat
  resend : Tab (Option Resend)
  /-- local Mantel runs of the rollout scratch slots, and last of the resend ring: address and length (R310) -/
  runs : List (Nat × Nat)
  /-- bound mode in force since the last load or recovery (CB+0x02:20) -/
  live : Bool
  run : HRun
  scratch : Tab (List Sample)
  frozen : Bool
  deriving DecidableEq, Repr

/-- Opal and Mantel (09, 10). -/
structure Store where
  steps : Tab (Option OStep)
  nextStep : Nat
  /-- skipped events that wait for their sequence update, by instrument (R294) -/
  skips : Tab (List (BitVec 32))
  caches : Tab Cache
  dir : Tab Dir
  /-- migrations under way, by instrument (R323) -/
  migs : Tab (Option Migration)
  /-- sources awaiting release after a switch: instrument gives placement and address (R323) -/
  releasing : Tab (Option (Nat × BitVec 34))
  regions : Tab (BitVec 256)
  /-- local space is being laid again, after these banks were retired (R331) -/
  relaying : Bool
  relayBanks : List Nat
  retiredRows : List (Nat × Nat)
  /-- a bank has gone Cold, and the local caches have still to be reset (R332) -/
  localLost : Bool
  /-- local lines that read as uncorrectable until they are next written (R329) -/
  badLines : List Nat
  /-- instruments whose cache header Mantel has to write once their region is valid again (R317, R327) -/
  heldHeaders : List Nat
  deriving DecidableEq, Repr

/-- Hearth configuration store and grid (12). -/
structure Grid where
  slots : Tab (Option HSlot)
  retired : List Nat
  deriving DecidableEq, Repr

/-- The Chimney (13). -/
structure Chim where
  /-- message numbers whose records wait at an order point of a context, with arrival times (R403, R583) -/
  intake : Tab (List Nat)
  replies : Tab (Option Reply)
  nextReply : Nat
  /-- wait lines by context · 8 + port: reply numbers, head first (R418) -/
  lines : Tab (List Nat)
  /-- context buckets (0–63) and session buckets (64 + s) -/
  buckets : Tab Bucket
  /-- arbitration groups of the ports' queues (R31, R583): when the open group opened -/
  groupAt : Tab Time
  deriving DecidableEq, Repr

/-- The Flue (14). -/
structure Flue where
  chans : Tab Chan
  /-- what the hold of R316 keeps back, oldest first -/
  held : List HeldPkt
  unreachable : List (BitVec 16 × BitVec 16)
  deriving DecidableEq, Repr

/-- The counter file (15): the values, the counters saturated since their range was last loaded (R467) and the increments
waiting. -/
structure Counters where
  values : Tab (BitVec 64)
  saturated : List Nat
  requests : List IncReq
  deriving DecidableEq, Repr

/-- Management (17). -/
structure Mgmt where
  grants : Tab (BitVec 128)
  canX : Option Transfer
  boxX : Option Transfer
  tapX : Option Transfer
  /-- upload snapshots of the mailbox and of the TAP (R520, R527): index, subindex and bytes -/
  snapshot : Option (Nat × Nat × Bytes)
  tapSnapshot : Option (Nat × Nat × Bytes)
  /-- last mailbox request served from each mesh node: sequence and stored response (R528) -/
  served : List ((BitVec 16 × BitVec 16) × BitVec 16 × Bytes)
  staged : Option Staged
  nmt : Nmt
  nodeId : Nat
  emcy : List Emcy
  inhibited : Bool
  errors : List (BitVec 32)
  conditions : List (BitVec 16)
  tapInstr : Byte
  tapLast : Bytes
  pStore : List PVal
  pSending : List PVal
  /-- P objects whose last write the store failed to take: index, subindex, selection (R517) -/
  pLost : List (Nat × Nat × Nat)
  deriving DecidableEq, Repr

/-- Power domains and gauges (02, 18). -/
structure Power where
  domains : Tab Domain
  gauges : Tab Nat
  liveTrip : List Nat
  breach : List Nat
  deriving DecidableEq, Repr

/-- Soot log and Ash pit (16). -/
structure Recov where
  soot : List Soot
  /-- entries written in this log millisecond, and lost, by group (R505) -/
  written : List ((BitVec 16 × Option Nat) × Nat × Nat)
  /-- the log millisecond that `written` counts (R505) -/
  logMs : Nat
  ash : Tab Dump
  nextDump : Nat
  /-- events counted toward a unit's threshold: unit type, index, cycle numbers (R495) -/
  struck : List (Nat × Nat × Nat)
  deriving DecidableEq, Repr

/-- The state of the block, and the queue of the commands that are waiting. -/
structure State where
  pending : List Instr
  sys : Sys
  /-- the dictionary's registers: key index · 256 + subindex, raw value; an unlisted key reads as its default -/
  objs : Tab Nat
  /-- select subindices: copy · 2^24 + key (R521) -/
  selects : Tab Nat
  quartz : Quartz
  net : Net
  work : Work
  ctxs : Tab Ctx
  store : Store
  grid : Grid
  chim : Chim
  flue : Flue
  ctr : Counters
  mgmt : Mgmt
  power : Power
  recov : Recov
  deriving DecidableEq, Repr

/-! ### Reset values of the parts -/

def Base.reset : Base :=
  { n := 0, f := 0, g := 0, residue := 0, rho := 0, u := 0, pendingWrap := false, wrapRaised := false,
    session := .idle, step := none, refStatus := 1, ppb := 0 }

def Ptp.reset : Ptp :=
  { overs := 0, foreign := [], parent := none, lastSync := none, t21 := 0, meanDelay := 0, lostSyncs := 0, seq := 0,
    delayReq := none }

def Pulse.reset : Pulse := { next := none, high := false }

def Capture.reset : Capture := { fifo := [], last := none }

def GateList.reset : GateList :=
  { list := [], base := 0, cycle := 1000000, pos := 0, gates := 0xFF, since := 0, held := false }

def Port.reset : Port :=
  { link := .down, fec := false, penable := 1, frag := 0, verifyMs := 10, verifyTries := 0, rx := none, held := none, tx := none,
    served := [], filters := [], hits := [], reserved := [], adminList := [], oper := GateList.reset, change := none,
    ipid := 0, queue := [], sending := [], fwQueue := [], idleAt := 0 }

def Ring.reset : Ring := { chains := [], unnotified := 0, dropLogged := false }

def Slot.reset : Slot := { vals := List.replicate 16 0, seq := 0, stamp := 0, old := false, published := false }

def Ledger.reset : Ledger := { garnet := 0, lanes := [], hearth := [], egress := [], order := [], instrs := [] }

def EnsSlot.reset : EnsSlot := { state := .empty, ens := none, place := [], width := 0, damaged := false, lost := [] }

def Dir.reset : Dir := { pl := 0, lock := false, mig := false, ver := 0, nseq := 1, addr := 0, region := 0 }

def Cache.reset : Cache := { tag := 0, next := 1, valid := [], rows := [] }

def Rollout.reset : Rollout :=
  { state := .idle, instr := 0, waits := none, lane := none, reading := false, bad := [], steps := 0, done := 0, sf := 0,
    valid := [], kctr := 0xFFFF, first := [], results := [], rows := [] }

def HRun.reset : HRun :=
  { queues := [], spill := [], sums := [], taken := [], andP := [], emitted := [], takes := [], block := [],
    runAt := [], runBase := [], mem := [], fins := [], open_ := [], waiting := [], credits := [], fli := [], parked := [],
    released := [], bins := [], swap := none }

def Ctx.reset : Ctx :=
  { image := none, td := none, storms := [], ens := [], progs := [], weights := none, shadow := none, switches := 0,
    broken := [], rollouts := [], tickets := [], damaged := [], resend := [], runs := [], live := false,
    run := HRun.reset, scratch := [], frozen := false }

def Bucket.reset : Bucket := { tokens := 0 }

def Chan.reset : Chan :=
  { state := .down, x := 0, y := 0, sent := 0, received := 0, crcErrors := 0, replays := 0, txSeq := 0, rxSeq := 0,
    unacked := [], nak := false, credIn := [0, 0, 0], freed := [0, 0, 0], flits := [0, 0, 0], waiting := [], again := [], outstanding := [], reuse := [],
    turn := 0 }

def Dump.reset : Dump := { bytes := [], held := false }

/-- A domain other than always-on before its first On: Cold (R562, R563 step 1), policy 1 (R547). -/
def Domain.reset : Domain :=
  { state := .cold, changing := none, queued := none, retired := false, vdd := 0, tj := 0, power := 0, policy := 1,
    cycles := 0, shutdowns := 0, thermal := false, warned := false, hotReads := 0, windows := [], monitor := 0,
    clearLive := [], clearBreach := [], clearOn := [], open_ := false, lowerWait := 0, ceiling := false, cycle := false }

def Sys.reset : Sys :=
  { boot := .held, keyHash := [], fwId := 0, siteX := 0, siteY := 0, serial := 0, serialText := List.replicate 16 0x20,
    revision := 0, firmware := [], cornerCount := 0, cycles := 0, warmAt := [], fresh := 0, out := [] }

def Quartz.reset : Quartz := { bases := [], ptp := [], pulses := [], captures := [] }

def Net.reset : Net := { ports := [], frames := [], nextFrame := 0, rings := [], sram := [] }

def Work.reset : Work :=
  { msgs := [], nextMsg := 0, symbols := [], rows := [], slots := [], ledger := Ledger.reset, access := [], taken := [], swept := 0 }

def Store.reset : Store :=
  { steps := [], nextStep := 0, skips := [], caches := [], dir := [], migs := [], releasing := [], regions := [],
    relaying := false, relayBanks := [], retiredRows := [], localLost := false, badLines := [], heldHeaders := [] }

def Grid.reset : Grid := { slots := [], retired := [] }

def Chim.reset : Chim := { intake := [], replies := [], nextReply := 0, lines := [], buckets := [], groupAt := [] }

def Flue.reset : Flue := { chans := [], held := [], unreachable := [] }

def Counters.reset : Counters := { values := [], saturated := [], requests := [] }

def Mgmt.reset : Mgmt :=
  { grants := [], canX := none, boxX := none, tapX := none, snapshot := none, tapSnapshot := none, served := [],
    staged := none, nmt := .bootUp, nodeId := 1, emcy := [], inhibited := false, errors := [], conditions := [],
    tapInstr := 0x01, tapLast := [], pStore := [], pSending := [], pLost := [] }

def Power.reset : Power := { domains := [], gauges := [], liveTrip := [], breach := [] }

def Recov.reset : Recov := { soot := [], written := [], logMs := 0, ash := [], nextDump := 0, struck := [] }

/-- The block as the wafer controller holds it in reset after power-good (18, Start-up): every object at its default,
every context Free, no image, nothing in flight. Domains 0–34 are Cold. -/
def State.reset : State :=
  { pending := [], sys := Sys.reset, objs := [], selects := [], quartz := Quartz.reset, net := Net.reset,
    work := Work.reset, ctxs := [], store := Store.reset, grid := Grid.reset, chim := Chim.reset, flue := Flue.reset,
    ctr := Counters.reset, mgmt := Mgmt.reset, power := Power.reset, recov := Recov.reset }

end Sys2Proof.Machine
end

