-- ==== Sys2Proof/Machine/Table.lean ====
section
/-! DEFINITION. Reading and writing sparse tables, and the byte-order, bit-field and CRC helpers every family uses. -/

namespace Sys2Proof.Machine

/-! ### Sparse tables -/

/-- What key `k` reads as; `d` for a key that is not listed. -/
def tabGet {α : Type} (d : α) (t : Tab α) (k : Nat) : α :=
  match t with
  | [] => d
  | (k', v) :: t => if k = k' then v else tabGet d t k

/-- The table with `v` listed at `k`, in key order. -/
def tabPut {α : Type} (t : Tab α) (k : Nat) (v : α) : Tab α :=
  match t with
  | [] => [(k, v)]
  | (k', v') :: t =>
    if k < k' then (k, v) :: (k', v') :: t
    else if k = k' then (k, v) :: t
    else (k', v') :: tabPut t k v

/-- The table with nothing listed at `k`. -/
def tabErase {α : Type} (t : Tab α) (k : Nat) : Tab α :=
  match t with
  | [] => []
  | (k', v') :: t => if k = k' then tabErase t k else (k', v') :: tabErase t k

/-- Writes `v` at `k`, keeping the canonical form: the default is not listed. -/
def tabSet {α : Type} [DecidableEq α] (d : α) (t : Tab α) (k : Nat) (v : α) : Tab α :=
  if v = d then tabErase t k else tabPut t k v

/-- Every key of the table is above `lo`, strictly rising, and no value is the default. -/
def tabWf {α : Type} [DecidableEq α] (d : α) (lo : Option Nat) (t : Tab α) : Bool :=
  match t with
  | [] => true
  | (k, v) :: t =>
    (match lo with | none => true | some l => decide (l < k)) && decide (v ≠ d) && tabWf d (some k) t

/-- The canonical form of a memory: rising addresses, no byte listed that reads as 0 anyway. -/
def Memory.wf (m : List Host.Cell) : Bool := tabWf (0 : BitVec 8) none m

/-- The byte of a memory at an address. -/
def memRead (m : List Host.Cell) (a : Nat) : Byte := tabGet (0 : BitVec 8) m a

/-- Writes one byte of a memory. -/
def memWrite (m : List Host.Cell) (a : Nat) (b : Byte) : List Host.Cell := tabSet (0 : BitVec 8) m a b

/-- The `n` bytes from address `a`. -/
def memReadN (m : List Host.Cell) (a n : Nat) : Bytes := (List.range n).map fun i => memRead m (a + i)

/-- Writes a byte string from address `a` on. -/
def memWriteN (m : List Host.Cell) (a : Nat) (bs : Bytes) : List Host.Cell :=
  match bs with
  | [] => m
  | b :: bs => memWriteN (memWrite m a b) (a + 1) bs

/-! ### Byte order -/

/-- The little-endian number of a byte string. -/
def leNat (bs : Bytes) : Nat :=
  match bs with
  | [] => 0
  | b :: bs => b.toNat + 256 * leNat bs

/-- The big-endian number of a byte string. -/
def beNat (bs : Bytes) : Nat := leNat bs.reverse

/-- `n` bytes of a number, least significant first. -/
def toLe (n : Nat) (v : Nat) : Bytes :=
  match n with
  | 0 => []
  | n + 1 => BitVec.ofNat 8 v :: toLe n (v / 256)

/-- `n` bytes of a number, most significant first. -/
def toBe (n : Nat) (v : Nat) : Bytes := (toLe n v).reverse

/-- `n` bytes of a string from offset `o`; fewer where the string ends. -/
def slice (bs : Bytes) (o n : Nat) : Bytes := (bs.drop o).take n

/-- The little-endian field of `n` bytes at offset `o`. -/
def leAt (bs : Bytes) (o n : Nat) : Nat := leNat (slice bs o n)

/-- The big-endian field of `n` bytes at offset `o`. -/
def beAt (bs : Bytes) (o n : Nat) : Nat := beNat (slice bs o n)

/-- The byte at offset `o`, 0 past the end. -/
def byteAt (bs : Bytes) (o : Nat) : Byte := bs.getD o 0

/-- Whether the bytes from `o`, `n` of them, are all zero: a reserved field as it must be (R6). -/
def zeroAt (bs : Bytes) (o n : Nat) : Bool := (slice bs o n).all (· == 0)

/-- Writes `v` over the bytes of `bs` from offset `o`. -/
def patch (bs : Bytes) (o : Nat) (v : Bytes) : Bytes := bs.take o ++ v ++ bs.drop (o + v.length)

/-- Bits [hi:lo] of a number. -/
def bits (v hi lo : Nat) : Nat := (v / 2 ^ lo) % 2 ^ (hi + 1 - lo)

/-- Bit `i` of a number. -/
def bit (v i : Nat) : Bool := v.testBit i

/-- The two's-complement reading of the low `n` bits. -/
def signed (n v : Nat) : Int := if v % 2 ^ n < 2 ^ (n - 1) then (v % 2 ^ n : Nat) else (v % 2 ^ n : Nat) - (2 ^ n : Nat)

/-- The low `n` bits of an integer in two's complement. -/
def unsign (n : Nat) (v : Int) : Nat := (v % (2 ^ n : Nat)).toNat

/-- A number with bit `i` for each element of the list. -/
def maskOf (l : List Nat) : Nat := l.foldl (fun m i => m ||| 2 ^ i) 0

/-- A byte string padded with zeros to a multiple of `n`. -/
def padTo (n : Nat) (bs : Bytes) : Bytes := bs ++ List.replicate ((n - bs.length % n) % n) 0

/-- A string of ASCII characters as bytes. -/
def ascii (s : String) : Bytes := s.toList.map fun c => BitVec.ofNat 8 c.toNat

/-! ### CRCs -/

/-- One bit of a reflected CRC with polynomial `poly`. -/
def crcBit (poly crc : Nat) : Nat := if crc % 2 = 1 then (crc / 2) ^^^ poly else crc / 2

/-- One byte of a reflected CRC. -/
def crcByte (poly crc : Nat) (b : Byte) : Nat := Nat.repeat (crcBit poly) 8 (crc ^^^ b.toNat)

/-- A reflected CRC-32 with initial value and final XOR 0xFFFF_FFFF (R183). -/
def crcWith (poly : Nat) (bs : Bytes) : Nat := (bs.foldl (crcByte poly) 0xFFFFFFFF) ^^^ 0xFFFFFFFF

/-- CRC-32C (R183). -/
def crc32c (bs : Bytes) : Nat := crcWith 0x82F63B78 bs

/-- The FCS of IEEE 802.3 (R85), first byte on the wire in the low bits. PRESUMED: the polynomial is the
standard's, which the spec names and does not print (notes/assumptions/12). -/
def fcs32 (bs : Bytes) : Nat := crcWith 0xEDB88320 bs

/-! ### Times -/

/-- Nanoseconds. -/
def ns (n : Int) : Time := n * 5120000000

/-- Tenths of a nanosecond. -/
def tenths (n : Int) : Time := n * 512000000

/-- Picoseconds. -/
def ps (n : Int) : Time := n * 5120000

/-- Units of 2^-16 ns. -/
def frac16 (n : Int) : Time := n * 78125

/-- A time times a factor in millionths, such as D_m (R59). -/
def scaled (m : Nat) (t : Time) : Time := t * m / 1000000

/-- The byte time of a port (R187). -/
def byteTime (s : Speed) : Time := match s with | .g25 => ps 320 | .g10 => ps 800

/-- A quotient rounded up. -/
def cdiv (a b : Nat) : Nat := (a + b - 1) / b

/-- ⌈log2 n⌉, 0 for n ≤ 1 (R52). -/
def clog2 (n : Nat) : Nat := if n ≤ 1 then 0 else Nat.log2 (n - 1) + 1

end Sys2Proof.Machine
end

