-- ==== Sys2Proof/Machine/Objects.lean ====
section
/-! DEFINITION. The object dictionary's tables: every row of the spec's object tables, written from them, with the range
that a row's Meaning states. -/

namespace Sys2Proof.Machine

/-- Object types (R514); `u n` and `i n` are n bytes. -/
inductive OTy where
  | u (bytes : Nat)
  | i (bytes : Nat)
  | bool
  | dom
  deriving DecidableEq, Repr

/-- Access codes (R515). -/
inductive Acc where
  | ro
  | rw
  | wo
  | rwi
  deriving DecidableEq, Repr

/-- Retention classes (R554). -/
inductive Ret where
  | p
  | w
  | c
  | v
  deriving DecidableEq, Repr

/-- The range of a value: any of its type, an interval, or reserved bits that must be zero. -/
inductive Rng where
  | any
  | between (lo hi : Int)
  | mask (reserved : Nat)
  deriving DecidableEq, Repr

/-- A row of an object table: `n` indices from `idx`, `stride` apart, subindices `lo` to `hi`. -/
structure Row where
  idx : Nat
  n : Nat
  stride : Nat
  lo : Nat
  hi : Nat
  ty : OTy
  acc : Acc
  dflt : Nat
  ret : Ret
  rng : Rng
  /-- held in one copy per requester (R521) -/
  select : Bool
  deriving DecidableEq, Repr

/-- A row, its fields in the order of the tables. -/
def row (idx n stride lo hi : Nat) (ty : OTy) (acc : Acc) (dflt : Nat) (ret : Ret) (rng : Rng) (select : Bool) : Row :=
  { idx, n, stride, lo, hi, ty, acc, dflt, ret, rng, select }

/-- Object rows, area Context, part 1. -/
def rowsContext1 : List Row :=
  [
   row 0x3000 64 16 0x0 0x0 (.u 1) .ro 0xE .v .any false,
   row 0x3000 64 16 0x1 0x1 (.u 1) .ro 0x0 .v .any false,
   row 0x3000 64 16 0x2 0x2 (.u 1) .ro 0x0 .w .any false,
   row 0x3000 64 16 0x3 0x3 (.u 1) .wo 0x0 .v (.between (1) 5) false,
   row 0x3000 64 16 0x4 0x4 (.u 4) .ro 0x0 .v .any false,
   row 0x3000 64 16 0x5 0x5 (.bool) .rwi 0x0 .p .any false,
   row 0x3000 64 16 0x6 0x6 (.u 8) .ro 0x0 .c .any false,
   row 0x3000 64 16 0x7 0x7 (.u 8) .ro 0x0 .c .any false,
   row 0x3000 64 16 0x8 0x8 (.u 8) .ro 0x0 .c .any false,
   row 0x3000 64 16 0x9 0x9 (.u 4) .ro 0x0 .w .any false,
   row 0x3000 64 16 0xA 0xA (.u 2) .ro 0x0 .w .any false,
   row 0x3000 64 16 0xB 0xB (.u 8) .ro 0x0 .v .any false,
   row 0x3000 64 16 0xC 0xC (.u 1) .ro 0x0 .v .any false,
   row 0x3000 64 16 0xD 0xD (.u 1) .ro 0x0 .v .any false,
   row 0x3000 64 16 0xE 0xE (.u 2) .ro 0x0 .v .any false,
   row 0x3002 64 16 0x20 0x20 (.u 1) .rwi 0x0 .p (.between (0) 1) false,
   row 0x3002 64 16 0x21 0x21 (.u 2) .rwi 0x28 .p (.between (0) 260) false,
   row 0x3002 64 16 0x22 0x22 (.u 2) .rwi 0x190 .p (.between (0) 4800) false,
   row 0x3002 64 16 0x23 0x23 (.u 2) .rwi 0x7D0 .p (.between (0) 16000) false,
   row 0x3002 64 16 0x24 0x24 (.u 1) .rwi 0x1 .p (.between (0) 1) false,
   row 0x3002 64 16 0x25 0x25 (.u 8) .ro 0x0 .c .any false,
   row 0x3002 64 16 0x26 0x26 (.u 1) .rwi 0x0 .p (.between (0) 63) false,
   row 0x3002 64 16 0x27 0x2D (.u 8) .ro 0x0 .c .any false,
   row 0x3002 64 16 0x30 0x37 (.u 4) .ro 0x0 .v .any false,
   row 0x3002 64 16 0x38 0x38 (.u 4) .ro 0x0 .v .any false,
   row 0x3002 64 16 0x0 0x0 (.u 1) .ro 0x38 .v .any false,
   row 0x3002 64 16 0x1 0x8 (.dom) .ro 0x0 .v .any false,
   row 0x3002 64 16 0x9 0x9 (.u 8) .ro 0x0 .c .any false,
   row 0x3002 64 16 0xA 0xA (.u 8) .ro 0x0 .c .any false,
   row 0x3002 64 16 0xB 0xB (.u 8) .ro 0x0 .c .any false,
   row 0x3002 64 16 0xC 0xC (.u 8) .ro 0x0 .c .any false,
   row 0x3002 64 16 0xD 0xD (.u 8) .ro 0x0 .c .any false,
   row 0x3002 64 16 0xE 0xE (.u 8) .ro 0x0 .c .any false,
   row 0x3002 64 16 0xF 0xF (.u 8) .ro 0x0 .c .any false,
   row 0x3002 64 16 0x10 0x10 (.u 8) .ro 0x0 .c .any false,
   row 0x3002 64 16 0x11 0x11 (.u 8) .ro 0x0 .c .any false,
   row 0x3002 64 16 0x12 0x12 (.u 8) .ro 0x0 .c .any false,
   row 0x3002 64 16 0x13 0x13 (.dom) .wo 0x0 .v .any false,
   row 0x3002 64 16 0x14 0x14 (.u 2) .ro 0x0 .v .any false,
   row 0x3003 64 16 0x0 0x0 (.u 1) .ro 0x8 .v .any false,
   row 0x3003 64 16 0x1 0x1 (.dom) .ro 0x0 .v .any false,
   row 0x3003 64 16 0x2 0x2 (.u 1) .rw 0x0 .v (.mask 0xE0) false,
   row 0x3003 64 16 0x3 0x3 (.u 8) .ro 0x0 .c .any false,
   row 0x3003 64 16 0x4 0x4 (.u 8) .ro 0x0 .c .any false,
   row 0x3003 64 16 0x5 0x5 (.u 2) .wo 0x0 .v .any false,
   row 0x3003 64 16 0x6 0x6 (.u 2) .rw 0x0 .v (.between (0) 16383) true,
   row 0x3003 64 16 0x7 0x7 (.dom) .ro 0x0 .v .any false,
   row 0x3003 64 16 0x8 0x8 (.u 4) .ro 0x0 .c .any false,
   row 0x3004 64 16 0x0 0x0 (.u 1) .ro 0xB .v .any false,
   row 0x3004 64 16 0x1 0x1 (.dom) .ro 0x0 .v .any false,
   row 0x3004 64 16 0x2 0x2 (.u 1) .rw 0x0 .v (.mask 0xE0) false,
   row 0x3004 64 16 0x3 0x3 (.u 1) .rw 0x0 .v (.between (0) 15) true,
   row 0x3004 64 16 0x4 0x4 (.u 1) .ro 0x0 .v .any false,
   row 0x3004 64 16 0x5 0x5 (.dom) .wo 0x0 .v .any false,
   row 0x3004 64 16 0x6 0x6 (.u 1) .wo 0x0 .v (.between (1) 1) false,
   row 0x3004 64 16 0x7 0x7 (.u 2) .wo 0x0 .v (.mask 0xFF00) false,
   row 0x3004 64 16 0x8 0x8 (.u 8) .ro 0x0 .c .any false,
   row 0x3004 64 16 0x9 0x9 (.u 8) .ro 0x0 .c .any false,
   row 0x3004 64 16 0xA 0xA (.u 4) .ro 0x0 .c .any false,
   row 0x3004 64 16 0xB 0xB (.u 4) .ro 0x0 .v .any false ]

/-- Object rows, area Context, part 2. -/
def rowsContext2 : List Row :=
  [
   row 0x3005 64 16 0x0 0x0 (.u 1) .ro 0x12 .v .any false,
   row 0x3005 64 16 0x1 0x1 (.dom) .ro 0x0 .v .any false,
   row 0x3005 64 16 0x2 0x2 (.u 1) .rw 0x0 .v (.mask 0xE0) false,
   row 0x3005 64 16 0x3 0x3 (.u 8) .ro 0x0 .c .any false,
   row 0x3005 64 16 0x4 0x4 (.u 8) .ro 0x0 .c .any false,
   row 0x3005 64 16 0x5 0x5 (.u 8) .ro 0x0 .c .any false,
   row 0x3005 64 16 0x6 0x6 (.u 8) .ro 0x0 .c .any false,
   row 0x3005 64 16 0x7 0x7 (.u 8) .ro 0x0 .c .any false,
   row 0x3005 64 16 0x8 0x8 (.u 4) .ro 0x0 .c .any false,
   row 0x3005 64 16 0x9 0x9 (.u 1) .ro 0x0 .v .any false,
   row 0x3005 64 16 0xA 0xA (.dom) .wo 0x0 .v .any false,
   row 0x3005 64 16 0xB 0xB (.u 1) .wo 0x0 .v (.between (1) 2) false,
   row 0x3005 64 16 0xC 0xC (.dom) .wo 0x0 .v .any false,
   row 0x3005 64 16 0xD 0xD (.u 1) .rw 0x0 .v (.between (0) 3) true,
   row 0x3005 64 16 0xE 0xE (.dom) .ro 0x0 .v .any false,
   row 0x3005 64 16 0xF 0xF (.dom) .ro 0x0 .v .any false,
   row 0x3005 64 16 0x10 0x10 (.u 2) .rw 0x0 .v (.between (0) 16383) true,
   row 0x3005 64 16 0x11 0x11 (.dom) .ro 0x0 .v .any false,
   row 0x3005 64 16 0x12 0x12 (.u 4) .ro 0x0 .c .any false,
   row 0x3006 64 16 0x0 0x0 (.u 1) .ro 0xE .v .any false,
   row 0x3006 64 16 0x1 0x1 (.u 4) .rwi 0x0 .p (.mask 0x3F) false,
   row 0x3006 64 16 0x2 0x2 (.u 2) .ro 0x0 .v .any false,
   row 0x3006 64 16 0x3 0x3 (.u 4) .ro 0x0 .v .any false,
   row 0x3006 64 16 0x4 0x4 (.u 8) .ro 0x0 .v .any false,
   row 0x3006 64 16 0x5 0x5 (.u 2) .ro 0x0 .v .any false,
   row 0x3006 64 16 0x6 0x6 (.u 2) .ro 0x0 .v .any false,
   row 0x3006 64 16 0x7 0x7 (.u 2) .ro 0x0 .v .any false,
   row 0x3006 64 16 0x8 0x8 (.dom) .wo 0x0 .v .any false,
   row 0x3006 64 16 0x9 0x9 (.u 2) .rw 0x0 .v (.between (0) 16383) true,
   row 0x3006 64 16 0xA 0xA (.dom) .ro 0x0 .v .any false,
   row 0x3006 64 16 0xB 0xB (.u 4) .ro 0x0 .c .any false,
   row 0x3006 64 16 0xC 0xC (.u 4) .ro 0x0 .c .any false,
   row 0x3006 64 16 0xD 0xD (.u 4) .ro 0x0 .c .any false,
   row 0x3006 64 16 0xE 0xE (.u 4) .ro 0x0 .c .any false,
   row 0x3007 64 16 0x20 0x20 (.u 1) .rw 0x0 .v (.mask 0xE0) false,
   row 0x3007 64 16 0x21 0x21 (.u 8) .ro 0x0 .c .any false,
   row 0x3007 64 16 0x22 0x22 (.u 8) .ro 0x0 .c .any false,
   row 0x3007 64 16 0x23 0x23 (.u 4) .ro 0x0 .c .any false,
   row 0x3007 64 16 0x24 0x24 (.u 8) .ro 0x0 .c .any false,
   row 0x3007 64 16 0x25 0x25 (.u 8) .ro 0x0 .c .any false,
   row 0x3007 64 16 0x26 0x26 (.u 2) .rw 0x0 .v (.between (0) 3071) true,
   row 0x3007 64 16 0x27 0x27 (.dom) .ro 0x0 .v .any false,
   row 0x3007 64 16 0x0 0x0 (.u 1) .ro 0x27 .v .any false,
   row 0x3007 64 16 0x1 0x1 (.dom) .ro 0x0 .v .any false,
   row 0x3007 64 16 0x2 0x2 (.u 1) .ro 0xFF .v .any false,
   row 0x3007 64 16 0x3 0x3 (.u 1) .rw 0x0 .v (.between (0) 15) true,
   row 0x3007 64 16 0x4 0x4 (.dom) .wo 0x0 .v .any false,
   row 0x3007 64 16 0x5 0x5 (.u 1) .wo 0x0 .v (.between (1) 3) false,
   row 0x3007 64 16 0x6 0x6 (.u 1) .ro 0x0 .v .any false,
   row 0x3007 64 16 0x7 0x7 (.u 1) .rwi 0x14 .p (.between (1) 20) false,
   row 0x3007 64 16 0x8 0x8 (.u 8) .ro 0x0 .c .any false,
   row 0x3007 64 16 0x9 0x9 (.u 8) .ro 0x0 .c .any false,
   row 0x3007 64 16 0xA 0xA (.u 4) .rwi 0x3E8 .p (.between (100) 1000000) false,
   row 0x3007 64 16 0xB 0xB (.u 4) .rwi 0x0 .p (.between (0) 131072) false,
   row 0x3007 64 16 0xC 0xC (.u 8) .ro 0x0 .c .any false,
   row 0x3007 64 16 0xD 0xD (.u 4) .ro 0x0 .v .any false,
   row 0x3007 64 16 0xE 0xE (.u 4) .ro 0x0 .c .any false,
   row 0x3007 64 16 0xF 0xF (.dom) .ro 0x0 .v .any false,
   row 0x3007 64 16 0x10 0x10 (.u 2) .rw 0x0 .v (.between (0) 3071) true,
   row 0x3007 64 16 0x11 0x11 (.dom) .ro 0x0 .v .any false ]

/-- Object rows, area Context, part 3. -/
def rowsContext3 : List Row :=
  [
   row 0x3007 64 16 0x12 0x12 (.u 1) .wo 0x0 .v (.between (1) 1) false,
   row 0x3007 64 16 0x13 0x13 (.u 4) .ro 0x0 .c .any false,
   row 0x3008 64 16 0x0 0x0 (.u 1) .ro 0xE .v .any false,
   row 0x3008 64 16 0x1 0x1 (.dom) .ro 0x0 .v .any false,
   row 0x3008 64 16 0x2 0x2 (.u 2) .ro 0x0 .v .any false,
   row 0x3008 64 16 0x3 0x3 (.u 2) .rw 0x0 .v .any true,
   row 0x3008 64 16 0x4 0x4 (.u 8) .rwi 0x0 .c .any false,
   row 0x3008 64 16 0x5 0x5 (.u 8) .ro 0x0 .c .any false,
   row 0x3008 64 16 0x6 0x6 (.u 8) .ro 0x0 .c .any false,
   row 0x3008 64 16 0x7 0x7 (.u 8) .ro 0x0 .c .any false,
   row 0x3008 64 16 0x8 0x8 (.u 8) .ro 0x0 .c .any false,
   row 0x3008 64 16 0x9 0x9 (.u 8) .ro 0x0 .c .any false,
   row 0x3008 64 16 0xA 0xA (.u 4) .ro 0x0 .v .any false,
   row 0x3008 64 16 0xB 0xB (.u 2) .ro 0x0 .v .any false,
   row 0x3008 64 16 0xC 0xC (.u 2) .ro 0x0 .c .any false,
   row 0x3008 64 16 0xD 0xD (.u 2) .rw 0x0 .c .any false,
   row 0x3008 64 16 0xE 0xE (.u 8) .ro 0x0 .c .any false,
   row 0x3009 64 16 0x0 0x0 (.u 1) .ro 0xF .v .any false,
   row 0x3009 64 16 0x1 0x1 (.bool) .rw 0x0 .w .any false,
   row 0x3009 64 16 0x2 0x2 (.u 8) .rwi 0x0 .p .any false,
   row 0x3009 64 16 0x3 0x3 (.u 8) .rwi 0x0 .p .any false,
   row 0x3009 64 16 0x4 0x4 (.u 8) .rwi 0x0 .p .any false,
   row 0x3009 64 16 0x5 0x5 (.u 2) .rwi 0x0 .p (.mask 0xFC00) false,
   row 0x3009 64 16 0x6 0x6 (.u 4) .rwi 0x0 .p (.between (0) 1000000) false,
   row 0x3009 64 16 0x7 0x7 (.u 4) .rwi 0x3E8 .p (.between (1) 1000000000) false,
   row 0x3009 64 16 0x8 0x8 (.u 4) .ro 0x0 .v .any false,
   row 0x3009 64 16 0x9 0xF (.u 8) .ro 0x0 .c .any false,
   row 0x300B 64 16 0x0 0x0 (.u 1) .ro 0x6 .v .any false,
   row 0x300B 64 16 0x1 0x1 (.u 2) .rwi 0x0 .p (.between (0) 1023) false,
   row 0x300B 64 16 0x2 0x2 (.u 2) .rwi 0x0 .p (.between (0) 1024) false,
   row 0x300B 64 16 0x3 0x3 (.u 2) .rw 0x0 .v (.between (0) 1023) true,
   row 0x300B 64 16 0x4 0x4 (.u 8) .ro 0x0 .w .any false,
   row 0x300B 64 16 0x5 0x5 (.u 8) .wo 0x0 .v .any false,
   row 0x300B 64 16 0x6 0x6 (.u 2) .ro 0x0 .v .any false,
   row 0x300C 64 16 0x0 0x0 (.u 1) .ro 0x10 .v .any false,
   row 0x300C 64 16 0x1 0x1 (.u 4) .rwi 0x2710 .p (.between (1000) 1000000000) false,
   row 0x300C 64 16 0x2 0x2 (.u 4) .rwi 0x2710 .p (.between (1000) 1000000000) false,
   row 0x300C 64 16 0x3 0x3 (.u 4) .rwi 0x186A0 .p (.between (1000) 1000000000) false,
   row 0x300C 64 16 0x4 0x4 (.u 4) .rwi 0xF4240 .p (.between (1000) 1000000000) false,
   row 0x300C 64 16 0x5 0x5 (.u 4) .rwi 0x186A0 .p (.between (1000) 1000000000) false,
   row 0x300C 64 16 0x6 0xA (.u 8) .ro 0x0 .c .any false,
   row 0x300C 64 16 0xB 0xB (.u 4) .ro 0x0 .c .any false,
   row 0x300C 64 16 0xC 0xC (.u 8) .ro 0x0 .c .any false,
   row 0x300C 64 16 0xD 0xD (.u 8) .ro 0x0 .c .any false,
   row 0x300C 64 16 0xE 0xE (.u 4) .ro 0x0 .w .any false,
   row 0x300C 64 16 0xF 0xF (.u 1) .ro 0xFF .w .any false,
   row 0x300C 64 16 0x10 0x10 (.u 8) .ro 0x0 .c .any false,
   row 0x3001 64 16 0x0 0x0 (.u 1) .ro 0x8 .v .any false,
   row 0x3001 64 16 0x1 0x8 (.u 2) .ro 0x0 .v .any false,
   row 0x300A 64 16 0x0 0x0 (.u 1) .ro 0x1 .v .any false,
   row 0x300A 64 16 0x1 0x1 (.u 8) .ro 0x0 .v .any false ]

/-- Object rows, area Engine, part 1. -/
def rowsEngine1 : List Row :=
  [
   row 0x2380 1 1 0x0 0x0 (.u 1) .ro 0x8 .v .any false,
   row 0x2380 1 1 0x1 0x1 (.u 1) .rwi 0x3 .p (.between (0) 3) false,
   row 0x2380 1 1 0x2 0x2 (.u 2) .rwi 0x2BC .p (.between (500) 950) false,
   row 0x2380 1 1 0x3 0x3 (.u 2) .rwi 0xC8 .p (.between (50) 500) false,
   row 0x2380 1 1 0x4 0x4 (.u 8) .ro 0x0 .v .any false,
   row 0x2380 1 1 0x5 0x5 (.u 8) .ro 0x0 .v .any false,
   row 0x2380 1 1 0x6 0x6 (.u 4) .ro 0x0 .w .any false,
   row 0x2380 1 1 0x7 0x7 (.u 4) .ro 0x0 .w .any false,
   row 0x2380 1 1 0x8 0x8 (.u 1) .rwi 0xA .p (.between (1) 100) false,
   row 0x2400 1 1 0x0 0x0 (.u 1) .ro 0x3 .v .any false,
   row 0x2400 1 1 0x1 0x1 (.u 4) .ro 0x40000 .v .any false,
   row 0x2400 1 1 0x2 0x2 (.u 4) .ro 0x0 .v .any false,
   row 0x2400 1 1 0x3 0x3 (.u 8) .ro 0x0 .w .any false,
   row 0x2500 1 1 0x0 0x0 (.u 1) .ro 0x6 .v .any false,
   row 0x2500 1 1 0x1 0x1 (.u 2) .ro 0x200 .w .any false,
   row 0x2500 1 1 0x2 0x2 (.dom) .ro 0x0 .w .any false,
   row 0x2500 1 1 0x3 0x3 (.u 4) .ro 0x1000000 .v .any false,
   row 0x2500 1 1 0x4 0x4 (.u 8) .ro 0x0 .w .any false,
   row 0x2500 1 1 0x5 0x5 (.u 8) .ro 0x0 .w .any false,
   row 0x2500 1 1 0x6 0x6 (.u 4) .ro 0x0 .w .any false,
   row 0x2600 1 1 0x0 0x0 (.u 1) .ro 0x7 .v .any false,
   row 0x2600 1 1 0x1 0x1 (.u 2) .ro 0xFFFF .w .any false,
   row 0x2600 1 1 0x2 0x2 (.u 2) .rwi 0x8000 .p .any false,
   row 0x2600 1 1 0x3 0x3 (.dom) .ro 0x0 .v .any false,
   row 0x2600 1 1 0x4 0x4 (.u 8) .ro 0x0 .w .any false,
   row 0x2600 1 1 0x5 0x5 (.u 8) .ro 0x0 .w .any false,
   row 0x2600 1 1 0x6 0x6 (.u 8) .ro 0x0 .w .any false,
   row 0x2600 1 1 0x7 0x7 (.u 2) .ro 0x0 .w .any false,
   row 0x2700 1 1 0x0 0x0 (.u 1) .ro 0xA .v .any false,
   row 0x2700 1 1 0x1 0x1 (.u 1) .ro 0x3F .w .any false,
   row 0x2700 1 1 0x2 0x2 (.u 4) .ro 0xC000000 .w .any false,
   row 0x2700 1 1 0x3 0x3 (.u 4) .ro 0xC000000 .v .any false,
   row 0x2700 1 1 0x4 0x4 (.dom) .ro 0x0 .w .any false,
   row 0x2700 1 1 0x5 0x5 (.u 8) .ro 0x0 .w .any false,
   row 0x2700 1 1 0x6 0x6 (.u 8) .ro 0x0 .w .any false,
   row 0x2700 1 1 0x7 0x7 (.u 1) .rw 0x0 .v (.between (0) 63) true,
   row 0x2700 1 1 0x8 0x8 (.dom) .rwi 0x0 .p .any false,
   row 0x2700 1 1 0x9 0x9 (.u 8) .ro 0x0 .v .any false,
   row 0x2700 1 1 0xA 0xA (.u 4) .ro 0x0 .w .any false,
   row 0x2800 1 1 0x0 0x0 (.u 1) .ro 0xB .v .any false,
   row 0x2800 1 1 0x1 0x1 (.u 1) .rwi 0x0 .p (.between (0) 3) false,
   row 0x2800 1 1 0x2 0x2 (.u 4) .rwi 0x0 .p (.between (0) 1000000000) false,
   row 0x2800 1 1 0x3 0x3 (.u 8) .ro 0x0 .w .any false,
   row 0x2800 1 1 0x4 0x4 (.dom) .ro 0x0 .v .any false,
   row 0x2800 1 1 0x5 0x5 (.dom) .ro 0x0 .v .any false,
   row 0x2800 1 1 0x6 0x6 (.dom) .ro 0x0 .v .any false,
   row 0x2800 1 1 0x7 0x7 (.u 4) .ro 0x20000 .v .any false,
   row 0x2800 1 1 0x8 0x8 (.dom) .ro 0x0 .w .any false,
   row 0x2800 1 1 0x9 0x9 (.u 8) .ro 0x0 .w .any false,
   row 0x2800 1 1 0xA 0xA (.u 4) .ro 0x0 .w .any false,
   row 0x2800 1 1 0xB 0xB (.u 8) .ro 0x0 .w .any false,
   row 0x2910 64 1 0x0 0x0 (.u 1) .ro 0xC .v .any false,
   row 0x2910 64 1 0x1 0x1 (.u 1) .ro 0xFF .v .any false,
   row 0x2910 64 1 0x2 0x2 (.u 1) .ro 0x0 .c .any false,
   row 0x2910 64 1 0x3 0x3 (.u 1) .wo 0x0 .v .any false,
   row 0x2910 64 1 0x4 0x4 (.u 4) .rwi 0x0 .c .any false,
   row 0x2910 64 1 0x5 0x5 (.u 4) .rwi 0x0 .c .any false,
   row 0x2910 64 1 0x6 0x6 (.u 2) .rwi 0x0 .c .any false,
   row 0x2910 64 1 0x7 0x7 (.u 4) .rwi 0x0 .c .any false,
   row 0x2910 64 1 0x8 0x8 (.bool) .rw 0x0 .w .any false ]

/-- Object rows, area Engine, part 2. -/
def rowsEngine2 : List Row :=
  [
   row 0x2910 64 1 0x9 0x9 (.u 4) .rwi 0xFFFFFFFF .p .any false,
   row 0x2910 64 1 0xA 0xA (.u 4) .rwi 0x3E8 .p (.between (1) 1000000000) false,
   row 0x2910 64 1 0xB 0xB (.u 8) .ro 0x0 .c .any false,
   row 0x2910 64 1 0xC 0xC (.u 4) .ro 0x0 .c .any false,
   row 0x2900 1 1 0x0 0x0 (.u 1) .ro 0x5 .v .any false,
   row 0x2900 1 1 0x1 0x1 (.bool) .rw 0x0 .w .any false,
   row 0x2900 1 1 0x2 0x2 (.u 2) .ro 0x1000 .v .any false,
   row 0x2900 1 1 0x3 0x3 (.u 8) .ro 0x0 .w .any false,
   row 0x2900 1 1 0x4 0x4 (.u 8) .ro 0x0 .w .any false,
   row 0x2900 1 1 0x5 0x5 (.u 8) .ro 0x0 .w .any false,
   row 0x2A00 1 1 0x0 0x0 (.u 1) .ro 0xC .v .any false,
   row 0x2A00 1 1 0x1 0x1 (.dom) .ro 0x0 .w .any false,
   row 0x2A00 1 1 0x2 0x2 (.dom) .ro 0x0 .w .any false,
   row 0x2A00 1 1 0x3 0x3 (.u 2) .ro 0x0 .v .any false,
   row 0x2A00 1 1 0x4 0x4 (.u 8) .ro 0x0 .w .any false,
   row 0x2A00 1 1 0x5 0x5 (.u 8) .ro 0x0 .w .any false,
   row 0x2A00 1 1 0x6 0x6 (.u 8) .ro 0x0 .w .any false,
   row 0x2A00 1 1 0x7 0x7 (.u 8) .ro 0x0 .w .any false,
   row 0x2A00 1 1 0x8 0x8 (.u 4) .ro 0x0 .w .any false,
   row 0x2A00 1 1 0x9 0x9 (.u 4) .ro 0x0 .w .any false,
   row 0x2A00 1 1 0xA 0xA (.u 4) .ro 0x0 .w .any false,
   row 0x2A00 1 1 0xB 0xB (.u 8) .rwi 0x0 .p .any false,
   row 0x2A00 1 1 0xC 0xC (.u 2) .ro 0x0 .v .any false,
   row 0x2A10 1 1 0x0 0x0 (.u 1) .ro 0x9 .v .any false,
   row 0x2A10 1 1 0x1 0x1 (.u 1) .rw 0x0 .v .any true,
   row 0x2A10 1 1 0x2 0x2 (.u 1) .ro 0x0 .v .any false,
   row 0x2A10 1 1 0x3 0x3 (.u 2) .ro 0x0 .v .any false,
   row 0x2A10 1 1 0x4 0x4 (.u 2) .ro 0x0 .v .any false,
   row 0x2A10 1 1 0x5 0x5 (.u 2) .ro 0x0 .v .any false,
   row 0x2A10 1 1 0x6 0x6 (.u 8) .ro 0x0 .w .any false,
   row 0x2A10 1 1 0x7 0x7 (.u 8) .ro 0x0 .w .any false,
   row 0x2A10 1 1 0x8 0x8 (.u 4) .ro 0x0 .w .any false,
   row 0x2A10 1 1 0x9 0x9 (.u 4) .ro 0x0 .w .any false,
   row 0x2B00 1 1 0x0 0x0 (.u 1) .ro 0x7 .v .any false,
   row 0x2B00 1 1 0x1 0x1 (.u 2) .rw 0x0 .v (.between (0) 1023) true,
   row 0x2B00 1 1 0x2 0x2 (.u 8) .rwi 0x0 .w .any false,
   row 0x2B00 1 1 0x3 0x3 (.u 1) .ro 0xFF .v .any false,
   row 0x2B00 1 1 0x4 0x4 (.u 2) .ro 0x0 .v .any false,
   row 0x2B00 1 1 0x5 0x5 (.u 4) .ro 0x0 .w .any false,
   row 0x2B00 1 1 0x6 0x6 (.u 4) .ro 0x0 .w .any false,
   row 0x2B00 1 1 0x7 0x7 (.u 8) .ro 0x0 .w .any false,
   row 0x2A20 1 1 0x0 0x0 (.u 1) .ro 0x40 .v .any false,
   row 0x2A20 1 1 0x1 0x40 (.u 2) .rwi 0x0 .p .any false ]

/-- Object rows, area Port, part 1. -/
def rowsPort1 : List Row :=
  [
   row 0x2100 8 1 0x0 0x0 (.u 1) .ro 0xC .v .any false,
   row 0x2100 8 1 0x1 0x1 (.u 1) .rwi 0x0 .p (.between (0) 4) false,
   row 0x2100 8 1 0x2 0x2 (.u 1) .rwi 0x0 .p (.between (0) 1) false,
   row 0x2100 8 1 0x3 0x3 (.u 8) .rwi 0x0 .p (.mask 0xFFFF000000000000) false,
   row 0x2100 8 1 0x4 0x4 (.u 1) .rwi 0x1 .p (.mask 0xFC) false,
   row 0x2100 8 1 0x5 0x5 (.u 2) .rwi 0x600 .p (.between (64) 9600) false,
   row 0x2100 8 1 0x6 0x6 (.u 2) .rwi 0x200 .p (.mask 0xFCC0) false,
   row 0x2100 8 1 0x7 0x7 (.u 1) .rwi 0x0 .p (.between (0) 3) false,
   row 0x2100 8 1 0x8 0x8 (.u 1) .rwi 0x1 .p (.between (0) 2) false,
   row 0x2100 8 1 0x9 0x9 (.u 1) .rwi 0x0 .p (.between (0) 3) false,
   row 0x2100 8 1 0xA 0xA (.u 1) .rwi 0xA .p (.between (1) 128) false,
   row 0x2100 8 1 0xB 0xB (.u 1) .rwi 0x1 .p (.between (0) 1) false,
   row 0x2100 8 1 0xC 0xC (.u 1) .wo 0x0 .v (.between (1) 1) false,
   row 0x2110 8 1 0x0 0x0 (.u 1) .ro 0x16 .v .any false,
   row 0x2110 8 1 0x1 0x1 (.u 1) .ro 0x0 .v .any false,
   row 0x2110 8 1 0x2 0x2 (.bool) .ro 0x0 .v .any false,
   row 0x2110 8 1 0x3 0x3 (.u 1) .ro 0x0 .v .any false,
   row 0x2110 8 1 0x4 0x4 (.u 8) .ro 0x0 .w .any false,
   row 0x2110 8 1 0x5 0x5 (.u 8) .ro 0x0 .w .any false,
   row 0x2110 8 1 0x6 0x6 (.u 8) .ro 0x0 .w .any false,
   row 0x2110 8 1 0x7 0x7 (.u 8) .ro 0x0 .w .any false,
   row 0x2110 8 1 0x8 0x8 (.u 8) .ro 0x0 .w .any false,
   row 0x2110 8 1 0x9 0x9 (.u 8) .ro 0x0 .w .any false,
   row 0x2110 8 1 0xA 0xA (.u 8) .ro 0x0 .w .any false,
   row 0x2110 8 1 0xB 0xB (.u 8) .ro 0x0 .w .any false,
   row 0x2110 8 1 0xC 0xC (.u 8) .ro 0x0 .w .any false,
   row 0x2110 8 1 0xD 0xD (.u 8) .ro 0x0 .w .any false,
   row 0x2110 8 1 0xE 0xE (.u 8) .ro 0x0 .w .any false,
   row 0x2110 8 1 0xF 0xF (.u 8) .ro 0x0 .w .any false,
   row 0x2110 8 1 0x10 0x10 (.u 8) .ro 0x0 .w .any false,
   row 0x2110 8 1 0x11 0x11 (.u 8) .ro 0x0 .w .any false,
   row 0x2110 8 1 0x12 0x12 (.u 8) .ro 0x0 .w .any false,
   row 0x2110 8 1 0x13 0x13 (.u 8) .ro 0x0 .w .any false,
   row 0x2110 8 1 0x14 0x14 (.u 4) .ro 0x0 .w .any false,
   row 0x2110 8 1 0x15 0x15 (.u 8) .ro 0x0 .w .any false,
   row 0x2110 8 1 0x16 0x16 (.u 8) .ro 0x0 .w .any false,
   row 0x2120 8 1 0x0 0x0 (.u 1) .ro 0x4 .v .any false,
   row 0x2120 8 1 0x1 0x1 (.u 1) .rw 0x0 .v .any true,
   row 0x2120 8 1 0x2 0x2 (.dom) .rwi 0x0 .p .any false,
   row 0x2120 8 1 0x3 0x3 (.u 8) .ro 0x0 .w .any false,
   row 0x2120 8 1 0x4 0x4 (.u 2) .ro 0x0 .v .any false,
   row 0x2130 8 1 0x0 0x0 (.u 1) .ro 0xB .v .any false,
   row 0x2130 8 1 0x1 0x1 (.bool) .rwi 0x0 .p .any false,
   row 0x2130 8 1 0x2 0x2 (.u 2) .rwi 0x0 .p (.between (0) 256) false,
   row 0x2130 8 1 0x3 0x3 (.dom) .rwi 0x0 .p .any false,
   row 0x2130 8 1 0x4 0x4 (.u 8) .rwi 0x0 .p .any false,
   row 0x2130 8 1 0x5 0x5 (.u 4) .rwi 0xF4240 .p .any false,
   row 0x2130 8 1 0x6 0x6 (.u 1) .rwi 0xFF .p .any false,
   row 0x2130 8 1 0x7 0x7 (.u 1) .wo 0x0 .v (.between (1) 1) false,
   row 0x2130 8 1 0x8 0x8 (.bool) .ro 0x0 .v .any false,
   row 0x2130 8 1 0x9 0x9 (.u 8) .ro 0x0 .v .any false,
   row 0x2130 8 1 0xA 0xA (.dom) .ro 0x0 .v .any false,
   row 0x2130 8 1 0xB 0xB (.u 4) .ro 0x0 .w .any false,
   row 0x2140 64 1 0x0 0x0 (.u 1) .ro 0xD .v .any false,
   row 0x2140 64 1 0x1 0x1 (.u 1) .rwi 0x0 .p (.between (0) 2) false,
   row 0x2140 64 1 0x2 0x2 (.u 8) .rwi 0x0 .p (.mask 0x1F) false,
   row 0x2140 64 1 0x3 0x3 (.u 2) .rwi 0x0 .p (.between (0) 4096) false,
   row 0x2140 64 1 0x4 0x4 (.u 2) .ro 0x0 .v .any false,
   row 0x2140 64 1 0x5 0x5 (.u 2) .rw 0x0 .v .any false,
   row 0x2140 64 1 0x6 0x6 (.u 1) .rwi 0x0 .p (.between (0) 7) false ]

/-- Object rows, area Port, part 2. -/
def rowsPort2 : List Row :=
  [
   row 0x2140 64 1 0x7 0x7 (.u 2) .rwi 0x1 .p (.between (1) 4096) false,
   row 0x2140 64 1 0x8 0x8 (.u 4) .rwi 0x3E8 .p (.between (0) 1000000) false,
   row 0x2140 64 1 0x9 0x9 (.u 4) .rwi 0x0 .p .any false,
   row 0x2140 64 1 0xA 0xA (.u 8) .ro 0x0 .w .any false,
   row 0x2140 64 1 0xB 0xB (.u 8) .ro 0x0 .w .any false,
   row 0x2140 64 1 0xC 0xC (.u 8) .ro 0x0 .w .any false,
   row 0x2140 64 1 0xD 0xD (.u 8) .ro 0x0 .w .any false ]

/-- Object rows, area Quartz, part 1. -/
def rowsQuartz1 : List Row :=
  [
   row 0x2200 4 1 0x0 0x0 (.u 1) .ro 0xE .v .any false,
   row 0x2200 4 1 0x1 0x1 (.u 1) .rwi 0x0 .p (.mask 0xEC) false,
   row 0x2200 4 1 0x2 0x2 (.u 1) .ro 0x1 .v .any false,
   row 0x2200 4 1 0x3 0x3 (.u 1) .rwi 0x0 .p (.between (0) 1) false,
   row 0x2200 4 1 0x4 0x4 (.u 1) .ro 0x0 .w .any false,
   row 0x2200 4 1 0x5 0x5 (.u 1) .wo 0x0 .v (.between (1) 2) false,
   row 0x2200 4 1 0x6 0x6 (.i 8) .wo 0x0 .v .any false,
   row 0x2200 4 1 0x7 0x7 (.u 8) .wo 0x0 .v .any false,
   row 0x2200 4 1 0x8 0x8 (.i 8) .rw 0x0 .w (.between (-536870912) 536870912) false,
   row 0x2200 4 1 0x9 0x9 (.u 8) .ro 0x0 .w .any false,
   row 0x2200 4 1 0xA 0xA (.u 2) .ro 0x0 .v .any false,
   row 0x2200 4 1 0xB 0xB (.u 1) .ro 0x0 .w .any false,
   row 0x2200 4 1 0xC 0xC (.u 4) .ro 0x0 .w .any false,
   row 0x2200 4 1 0xD 0xD (.bool) .ro 0x0 .v .any false,
   row 0x2200 4 1 0xE 0xE (.u 4) .rwi 0x0 .p .any false,
   row 0x2210 4 1 0x0 0x0 (.u 1) .ro 0x13 .v .any false,
   row 0x2210 4 1 0x1 0x1 (.u 1) .rwi 0x0 .p (.between (0) 3) false,
   row 0x2210 4 1 0x2 0x2 (.u 1) .rwi 0x0 .p .any false,
   row 0x2210 4 1 0x3 0x3 (.u 1) .rwi 0x0 .p (.between (0) 1) false,
   row 0x2210 4 1 0x4 0x4 (.u 1) .rwi 0x2 .p (.between (1) 2) false,
   row 0x2210 4 1 0x5 0x5 (.u 1) .rwi 0x0 .p .any false,
   row 0x2210 4 1 0x6 0x6 (.u 1) .rwi 0x80 .p .any false,
   row 0x2210 4 1 0x7 0x7 (.u 1) .rwi 0x80 .p .any false,
   row 0x2210 4 1 0x8 0x8 (.u 1) .rwi 0xF8 .p .any false,
   row 0x2210 4 1 0x9 0x9 (.i 4) .rwi 0x0 .p (.between (-7) 1) false,
   row 0x2210 4 1 0xA 0xA (.i 4) .rwi 0x0 .p (.between (-7) 2) false,
   row 0x2210 4 1 0xB 0xB (.i 4) .rwi 0x1 .p (.between (-3) 3) false,
   row 0x2210 4 1 0xC 0xC (.u 1) .rwi 0x3 .p (.between (2) 10) false,
   row 0x2210 4 1 0xD 0xD (.u 4) .rwi 0x0 .p .any false,
   row 0x2210 4 1 0xE 0xE (.u 1) .rwi 0x6 .p (.between (0) 6) false,
   row 0x2210 4 1 0xF 0xF (.u 4) .rwi 0x186A0 .p (.between (1) 488000) false,
   row 0x2210 4 1 0x10 0x10 (.u 4) .ro 0x0 .v .any false,
   row 0x2210 4 1 0x11 0x11 (.i 8) .ro 0x0 .v .any false,
   row 0x2210 4 1 0x12 0x12 (.i 8) .ro 0x0 .v .any false,
   row 0x2210 4 1 0x13 0x13 (.u 8) .ro 0x0 .v .any false,
   row 0x2220 4 1 0x0 0x0 (.u 1) .ro 0x8 .v .any false,
   row 0x2220 4 1 0x1 0x1 (.u 1) .rwi 0x0 .p (.between (0) 3) false,
   row 0x2220 4 1 0x2 0x2 (.u 1) .rwi 0x0 .p (.between (0) 2) false,
   row 0x2220 4 1 0x3 0x3 (.u 8) .rwi 0x0 .p .any false,
   row 0x2220 4 1 0x4 0x4 (.u 4) .rwi 0x3B9ACA00 .p (.between (20) 4294967295) false,
   row 0x2220 4 1 0x5 0x5 (.u 4) .rwi 0xF4240 .p (.between (8) 4294967295) false,
   row 0x2220 4 1 0x6 0x6 (.bool) .rwi 0x0 .p .any false,
   row 0x2220 4 1 0x7 0x7 (.u 1) .ro 0x0 .v .any false,
   row 0x2220 4 1 0x8 0x8 (.u 4) .ro 0x0 .w .any false,
   row 0x2230 4 1 0x0 0x0 (.u 1) .ro 0x5 .v .any false,
   row 0x2230 4 1 0x1 0x1 (.u 1) .rwi 0x0 .p (.between (0) 3) false,
   row 0x2230 4 1 0x2 0x2 (.u 1) .rwi 0x0 .p (.between (0) 3) false,
   row 0x2230 4 1 0x3 0x3 (.dom) .ro 0x0 .v .any false,
   row 0x2230 4 1 0x4 0x4 (.u 1) .ro 0x0 .v .any false,
   row 0x2230 4 1 0x5 0x5 (.u 4) .ro 0x0 .w .any false,
   row 0x2240 8 1 0x0 0x0 (.u 1) .ro 0x6 .v .any false,
   row 0x2240 8 1 0x1 0x1 (.u 1) .rwi 0x0 .p (.between (0) 3) false,
   row 0x2240 8 1 0x2 0x2 (.i 4) .rwi 0x0 .p (.between (-10000) 10000) false,
   row 0x2240 8 1 0x3 0x3 (.i 4) .rwi 0x0 .p (.between (-10000) 10000) false,
   row 0x2240 8 1 0x4 0x4 (.i 4) .rwi 0x0 .p (.between (-1000000) 1000000) false,
   row 0x2240 8 1 0x5 0x5 (.i 4) .ro 0x0 .v .any false,
   row 0x2240 8 1 0x6 0x6 (.i 4) .ro 0x0 .v .any false ]

/-- Object rows, area Power, part 1. -/
def rowsPower1 : List Row :=
  [
   row 0x2C00 1 1 0x0 0x0 (.u 1) .ro 0x5 .v .any false,
   row 0x2C00 1 1 0x1 0x1 (.u 1) .rwi 0x3 .p (.between (0) 3) false,
   row 0x2C00 1 1 0x2 0x2 (.u 4) .ro 0x1 .w .any false,
   row 0x2C00 1 1 0x3 0x3 (.u 4) .rw 0x0 .v .any true,
   row 0x2C00 1 1 0x4 0x4 (.dom) .ro 0x0 .v .any false,
   row 0x2C00 1 1 0x5 0x5 (.u 8) .ro 0x0 .w .any false,
   row 0x2C10 1 1 0x0 0x0 (.u 1) .ro 0x8 .v .any false,
   row 0x2C10 1 1 0x1 0x1 (.u 4) .rwi 0x30D40 .p (.between (10000) 1000000) false,
   row 0x2C10 1 1 0x2 0x2 (.u 4) .rwi 0x2710 .p (.between (0) 3600000) false,
   row 0x2C10 1 1 0x3 0x3 (.u 4) .ro 0x0 .w .any false,
   row 0x2C10 1 1 0x4 0x4 (.u 4) .ro 0x0 .w .any false,
   row 0x2C10 1 1 0x5 0x5 (.u 8) .ro 0x0 .w .any false,
   row 0x2C10 1 1 0x6 0x6 (.u 4) .ro 0x0 .w .any false,
   row 0x2C10 1 1 0x7 0x7 (.u 1) .ro 0x0 .w .any false,
   row 0x2C10 1 1 0x8 0x8 (.u 4) .ro 0x0 .w .any false,
   row 0x2C20 1 1 0x0 0x0 (.u 1) .ro 0x6 .v .any false,
   row 0x2C20 1 1 0x1 0x1 (.u 4) .rwi 0xEA600002 .p .any false,
   row 0x2C20 1 1 0x2 0x2 (.u 4) .rwi 0xEA600002 .p .any false,
   row 0x2C20 1 1 0x3 0x3 (.u 4) .rwi 0xEA600002 .p .any false,
   row 0x2C20 1 1 0x4 0x4 (.u 4) .rwi 0xEA600002 .p .any false,
   row 0x2C20 1 1 0x5 0x5 (.u 4) .rwi 0x10040 .p .any false,
   row 0x2C20 1 1 0x6 0x6 (.u 4) .rwi 0xEA600008 .p .any false,
   row 0x2C30 1 1 0x0 0x0 (.u 1) .ro 0x6 .v .any false,
   row 0x2C30 1 1 0x1 0x1 (.u 1) .rw 0x0 .v (.between (0) 48) true,
   row 0x2C30 1 1 0x2 0x2 (.dom) .ro 0x0 .w .any false,
   row 0x2C30 1 1 0x3 0x3 (.u 1) .wo 0x0 .v (.between (1) 1) false,
   row 0x2C30 1 1 0x4 0x4 (.u 8) .ro 0x0 .w .any false,
   row 0x2C30 1 1 0x5 0x5 (.u 4) .ro 0x0 .w .any false,
   row 0x2C30 1 1 0x6 0x6 (.u 4) .ro 0x0 .w .any false,
   row 0x2D00 1 1 0x0 0x0 (.u 1) .ro 0x8 .v .any false,
   row 0x2D00 1 1 0x1 0x1 (.u 1) .wo 0x0 .v (.between (1) 2) false,
   row 0x2D00 1 1 0x2 0x2 (.u 1) .ro 0x0 .w .any false,
   row 0x2D00 1 1 0x3 0x3 (.u 4) .ro 0x0 .v .any false,
   row 0x2D00 1 1 0x4 0x4 (.u 2) .rwi 0x3E8 .p (.between (500) 1000) false,
   row 0x2D00 1 1 0x5 0x5 (.u 4) .ro 0x0 .w .any false,
   row 0x2D00 1 1 0x6 0x6 (.u 1) .rwi 0x55 .p (.between (70) 94) false,
   row 0x2D00 1 1 0x7 0x7 (.u 4) .rwi 0x64 .p (.between (0) 60000) false,
   row 0x2D00 1 1 0x8 0x8 (.u 4) .ro 0x0 .w .any false,
   row 0x2D20 1 1 0x0 0x0 (.u 1) .ro 0x9 .v .any false,
   row 0x2D20 1 1 0x1 0x1 (.u 1) .rw 0x0 .v (.between (0) 35) true,
   row 0x2D20 1 1 0x2 0x2 (.u 1) .ro 0x0 .v .any false,
   row 0x2D20 1 1 0x3 0x3 (.u 1) .rwi 0x1 .p (.between (0) 2) false,
   row 0x2D20 1 1 0x4 0x4 (.u 1) .wo 0x0 .v (.between (1) 3) false,
   row 0x2D20 1 1 0x5 0x5 (.u 2) .ro 0x0 .v .any false,
   row 0x2D20 1 1 0x6 0x6 (.i 4) .ro 0x0 .v .any false,
   row 0x2D20 1 1 0x7 0x7 (.u 4) .ro 0x0 .v .any false,
   row 0x2D20 1 1 0x8 0x8 (.u 4) .ro 0x0 .w .any false,
   row 0x2D20 1 1 0x9 0x9 (.u 4) .ro 0x0 .w .any false,
   row 0x2D10 1 1 0x0 0x0 (.u 1) .ro 0x60 .v .any false,
   row 0x2D10 1 1 0x1 0x60 (.u 2) .ro 0x0 .v .any false ]

/-- Object rows, area Comm, part 1. -/
def rowsComm1 : List Row :=
  [
   row 0x1000 1 1 0x0 0x0 (.u 4) .ro 0x0 .v .any false,
   row 0x1001 1 1 0x0 0x0 (.u 1) .ro 0x0 .v .any false,
   row 0x1003 1 1 0x0 0x0 (.u 1) .rw 0x0 .v (.between (0) 0) false,
   row 0x1003 1 1 0x1 0x10 (.u 4) .ro 0x0 .v .any false,
   row 0x1014 1 1 0x0 0x0 (.u 4) .ro 0x81 .v .any false,
   row 0x1015 1 1 0x0 0x0 (.u 2) .rwi 0x64 .p .any false,
   row 0x1017 1 1 0x0 0x0 (.u 2) .rwi 0x3E8 .p .any false,
   row 0x1018 1 1 0x0 0x0 (.u 1) .ro 0x4 .v .any false,
   row 0x1018 1 1 0x1 0x1 (.u 4) .ro 0xA71 .v .any false,
   row 0x1018 1 1 0x2 0x2 (.u 4) .ro 0xE08 .v .any false,
   row 0x1018 1 1 0x3 0x3 (.u 4) .ro 0x0 .v .any false,
   row 0x1018 1 1 0x4 0x4 (.u 4) .ro 0x0 .v .any false ]

/-- Object rows, area Identity, part 1. -/
def rowsIdentity1 : List Row :=
  [
   row 0x2000 1 1 0x0 0x0 (.u 1) .ro 0x7 .v .any false,
   row 0x2000 1 1 0x1 0x1 (.dom) .ro 0x0 .v .any false,
   row 0x2000 1 1 0x2 0x2 (.u 2) .ro 0x0 .v .any false,
   row 0x2000 1 1 0x3 0x3 (.u 2) .ro 0x0 .v .any false,
   row 0x2000 1 1 0x4 0x4 (.u 4) .ro 0x0 .v .any false,
   row 0x2000 1 1 0x5 0x5 (.dom) .ro 0x0 .v .any false,
   row 0x2000 1 1 0x6 0x6 (.u 1) .rwi 0x1 .p (.between (1) 127) false,
   row 0x2000 1 1 0x7 0x7 (.dom) .ro 0x0 .v .any false,
   row 0x2001 1 1 0x0 0x0 (.u 1) .ro 0x6 .v .any false,
   row 0x2001 1 1 0x1 0x1 (.u 1) .ro 0x0 .v .any false,
   row 0x2001 1 1 0x2 0x2 (.u 8) .ro 0x0 .v .any false,
   row 0x2001 1 1 0x3 0x3 (.u 8) .ro 0x0 .v .any false,
   row 0x2001 1 1 0x4 0x4 (.u 8) .ro 0x0 .v .any false,
   row 0x2001 1 1 0x5 0x5 (.u 8) .ro 0x0 .v .any false,
   row 0x2001 1 1 0x6 0x6 (.u 4) .ro 0x0 .w .any false,
   row 0x2020 1 1 0x0 0x0 (.u 1) .ro 0x4 .v .any false,
   row 0x2020 1 1 0x1 0x1 (.u 8) .rwi 0x0 .p .any false,
   row 0x2020 1 1 0x2 0x2 (.u 4) .rwi 0x0 .p (.mask 0x3FF) false,
   row 0x2020 1 1 0x3 0x3 (.u 4) .rwi 0x0 .v .any false,
   row 0x2020 1 1 0x4 0x4 (.bool) .ro 0x0 .v .any false,
   row 0x2010 1 1 0x0 0x0 (.u 1) .ro 0x11 .v .any false,
   row 0x2010 1 1 0x1 0x1 (.u 1) .rw 0x0 .v (.between (0) 15) true,
   row 0x2010 1 1 0x11 0x11 (.dom) .rwi 0x0 .p .any false ]

/-- Every object row of the spec's tables (R23, R75–R77, R125–R130, R164–R168, R194, R244, R245, R273, R274, R306,
R307, R333, R334, R371, R401, R402, R430–R433, R460–R462, R479, R480, R508–R512, R538–R541, R567, R568). -/
def objectRows : List Row :=
  rowsContext1 ++ rowsContext2 ++ rowsContext3 ++ rowsEngine1 ++ rowsEngine2 ++ rowsPort1 ++ rowsPort2 ++ rowsQuartz1 ++ rowsPower1 ++ rowsComm1 ++ rowsIdentity1

/-- Whether a row covers an index. -/
def rowHasIndex (r : Row) (i : Nat) : Bool :=
  r.idx ≤ i && i < r.idx + r.n * r.stride && (i - r.idx) % r.stride == 0

/-- Whether a row covers an index and subindex. -/
def rowHas (r : Row) (i sub : Nat) : Bool := rowHasIndex r i && r.lo ≤ sub && sub ≤ r.hi

/-- The row of an object. -/
def findRow (i sub : Nat) : Option Row := objectRows.find? fun r => rowHas r i sub

/-- Whether an index is assigned (R513). -/
def indexAssigned (i : Nat) : Bool := objectRows.any fun r => rowHasIndex r i

/-- The size of a value in bytes; none for a DOMAIN or string (R514). -/
def tyBytes (t : OTy) : Option Nat :=
  match t with
  | .u n => some n
  | .i n => some n
  | .bool => some 1
  | .dom => none

/-- The default of an object: its row's, but for the three rows whose default names the unit or another value. -/
def rowDefault (r : Row) (i sub : Nat) : Nat :=
  if r.idx = 0x2200 && sub = 1 then i - 0x2200                       -- Reference select: n (R164)
  else if i = 0x2140 && sub = 1 then 1                               -- ring 0x00 is a receive ring (R129)
  else if i = 0x2D20 && sub = 3 then 1
  else r.dflt

/-- The key of an object in `State.objs`. -/
def objKey (i sub : Nat) : Nat := i * 256 + sub

/-- The index of context block `c`, offset `k` (R22). -/
def cb (c k : Nat) : Nat := 0x3000 + 16 * c + k

end Sys2Proof.Machine
end

