-- ==== Sys2Proof/Machine/Ops.lean ====
section
/-! DEFINITION. The named operations over the block's state: registers of the dictionary, contexts, time bases, domains,
outputs, the Soot log, and the checks and answers of a dictionary request. -/

namespace Sys2Proof.Machine

/-! ### Registers -/

/-- The raw value of a dictionary register whose default is `d`. -/
def reg (s : State) (i sub d : Nat) : Nat := tabGet d s.objs (objKey i sub)

/-- Writes a dictionary register whose default is `d`. -/
def setReg (s : State) (i sub d v : Nat) : State := { s with objs := tabSet d s.objs (objKey i sub) v }

/-- The raw value of an object: its register, or its row's default. -/
def val (s : State) (i sub : Nat) : Nat :=
  reg s i sub (match findRow i sub with | none => 0 | some r => rowDefault r i sub)

/-- The value of an object of an integer type of `n` bytes. -/
def ival (n : Nat) (s : State) (i sub : Nat) : Int := signed (8 * n) (val s i sub)

/-- Writes the raw value of an object. -/
def put (s : State) (i sub v : Nat) : State :=
  setReg s i sub (match findRow i sub with | none => 0 | some r => rowDefault r i sub) v

/-- A counter of `w` bits advances by `n`, modulo 2^w (DESIGN CHOICE at the top of its range, notes/assumptions/14). -/
def bumpBy (w : Nat) (s : State) (i sub n : Nat) : State := setReg s i sub 0 ((reg s i sub 0 + n) % 2 ^ w)

/-- A 64-bit counter advances by one. -/
def bump (s : State) (i sub : Nat) : State := bumpBy 64 s i sub 1

/-- A 32-bit counter advances by one. -/
def bump32 (s : State) (i sub : Nat) : State := bumpBy 32 s i sub 1

/-! ### The channels of the Mantel list (R445, R454) -/

/-- Channel `f`. -/
def chanAt (s : State) (f : Nat) : Chan := tabGet Chan.reset s.flue.chans f

/-- The configurations that hold channels: those Active or Draining (R445, R459). -/
def heldConfigs (s : State) : List (Nat × HConfig) :=
  s.grid.slots.filterMap fun x =>
    match x.2 with
    | some h => if h.state = .active || h.state = .draining then h.cfg.map fun g => (h.owner, g) else none
    | none => none

/-- The Flue channel of an EDGE site (R337): e = 4 · column + ⌊row / 12⌋, with site = 48 · column + row (R336). -/
def siteChannel (site : Nat) : Nat := 4 * (site / 48) + site % 48 / 12

/-- The channels that Hearth circuits hold. -/
def heldChannels (s : State) : List Nat := (heldConfigs s).flatMap fun x => x.2.spreads.map fun e => siteChannel e.site

/-- The Mantel list: Up and Training channels that no Hearth circuit holds, in increasing number (R445). -/
def mantelList (s : State) : List Nat :=
  let held := heldChannels s
  s.flue.chans.filterMap fun x =>
    if (x.2.state = .up || x.2.state = .training) && !held.contains x.1 then some x.1 else none

/-- U_m (R314). -/
def um (s : State) : Nat := (mantelList s).length

/-- The Flue is down when U_m is 0 (R454). -/
def flueDown (s : State) : Bool := um s == 0

/-! ### Contexts -/

/-- Context states (R18). -/
inductive CtxState where
  | free
  | loading
  | closed
  | opened
  | recovering
  | unloading
  deriving DecidableEq, Repr

/-- The code of a context state (R18). -/
def ctxCode (t : CtxState) : Nat :=
  match t with
  | .free => 0
  | .loading => 1
  | .closed => 2
  | .opened => 3
  | .recovering => 4
  | .unloading => 5

/-- The state of a code; codes above 5 do not arise and read as Free. -/
def ctxOfCode (n : Nat) : CtxState :=
  match n with
  | 1 => .loading
  | 2 => .closed
  | 3 => .opened
  | 4 => .recovering
  | 5 => .unloading
  | _ => .free

/-- The state of context `c` (CB:01). -/
def ctxState (s : State) (c : Nat) : CtxState := ctxOfCode (reg s (cb c 0) 1 0)

/-- Puts context `c` into a state. -/
def setCtxState (s : State) (c : Nat) (t : CtxState) : State := setReg s (cb c 0) 1 0 (ctxCode t)

/-- The generation of context `c` (CB:02). -/
def ctxGen (s : State) (c : Nat) : Nat := reg s (cb c 0) 2 0 % 256

/-- The context tag in force (R14). -/
def ctxTag (s : State) (c : Nat) : BitVec 14 := BitVec.ofNat 14 (64 * ctxGen s c + c % 64)

/-- The context of a tag. -/
def tagCtx (t : BitVec 14) : Nat := t.toNat % 64

/-- Whether a tag's generation is the context's current one (R16). -/
def tagCurrent (s : State) (t : BitVec 14) : Bool := t.toNat / 64 == ctxGen s (tagCtx t)

/-- Work with a stale tag is discarded and counted (R16, CB:08). -/
def staleDrop (s : State) (t : BitVec 14) : State := bump s (cb (tagCtx t) 0) 8

/-- The record of context `c` beside its dictionary objects. -/
def ctxAt (s : State) (c : Nat) : Ctx := tabGet Ctx.reset s.ctxs c

/-- Writes the record of context `c`. -/
def setCtx (s : State) (c : Nat) (x : Ctx) : State := { s with ctxs := tabSet Ctx.reset s.ctxs c x }

/-- The numbers of all contexts. -/
def allCtxs : List Nat := List.range 64

/-- Whether a context is Closed or Open. -/
def isLoaded (s : State) (c : Nat) : Bool := ctxState s c == .closed || ctxState s c == .opened

/-- Whether instrument `i` lies in the set of context `c` (R535). -/
def inInstruments (s : State) (c i : Nat) : Bool :=
  match (ctxAt s c).image with
  | none => false
  | some m => m.ranges.any fun r => r.1 ≤ i && i < r.1 + r.2

/-- The instruments of context `c`, in increasing order. -/
def instruments (s : State) (c : Nat) : List Nat :=
  match (ctxAt s c).image with
  | none => []
  | some m => m.ranges.flatMap fun r => (List.range r.2).map (r.1 + ·)

/-! ### Time -/

/-- Base `n` of Quartz. -/
def baseAt (s : State) (n : Nat) : Base := tabGet Base.reset s.quartz.bases n

/-- Writes base `n`. -/
def setBase (s : State) (n : Nat) (b : Base) : State :=
  { s with quartz := { s.quartz with bases := tabSet Base.reset s.quartz.bases n b } }

/-- Extended time formed from a snapshot (R136): (U + pending) · 2^32 + N. -/
def baseE (b : Base) : Nat := (b.u.toNat + (if b.pendingWrap then 1 else 0)) * 2 ^ 32 + b.n.toNat

/-- The time of a base, E:F. -/
def baseNow (b : Base) : Time := ns (baseE b) + frac16 b.f.toNat

/-- The admission base (0x2380:01, R75). -/
def admBase (s : State) : Nat := reg s 0x2380 1 3 % 4

/-- Now, on the admission base. -/
def admNow (s : State) : Time := baseNow (baseAt s (admBase s))

/-- The log base (0x2C00:01). -/
def logBase (s : State) : Nat := reg s 0x2C00 1 3 % 4

/-- Elapsed time since reset, by the model's own clock: 1.6 ns a cycle (R132). -/
def elapsed (s : State) : Time := ps (1600 * (s.sys.cycles : Int))

/-! ### Outputs and free values -/

/-- Puts one thing on a pin or link. -/
def emit (s : State) (o : Output) : State := { s with sys := { s.sys with out := s.sys.out ++ [o] } }

/-- Takes the next free value's number. -/
def nextFree (s : State) : Nat × State := (s.sys.fresh, { s with sys := { s.sys with fresh := s.sys.fresh + 1 } })

/-! ### The Soot log (R502–R505) -/

/-- The next SEQ after `q`: 0 is skipped at the wrap (R502). -/
def nextSeq (q : BitVec 32) : BitVec 32 := if q + 1 = 0 then 1 else q + 1

/-- The SEQ the next entry takes (0x2C00:02). -/
def sootSeq (s : State) : BitVec 32 := BitVec.ofNat 32 (reg s 0x2C00 2 1)

/-- Writes an entry whatever its group has written: the newest of at most 65,536 (R502). -/
def sootPut (s : State) (ev : Nat) (tag : Option (BitVec 14)) (a b : Nat) : State :=
  let q := sootSeq s
  let entry : Soot :=
    { e := BitVec.ofNat 64 (baseE (baseAt s (logBase s))), seq := q, event := BitVec.ofNat 16 ev, tag := tag,
      a := BitVec.ofNat 64 a, b := BitVec.ofNat 64 b }
  setReg { s with recov := { s.recov with soot := (entry :: s.recov.soot).take 65536 } } 0x2C00 2 1 (nextSeq q).toNat

/-- The group of an entry (R505). -/
def sootGroup (ev : Nat) (tag : Option (BitVec 14)) : BitVec 16 × Option Nat :=
  (BitVec.ofNat 16 ev, tag.map tagCtx)

/-- The entries a group has written and lost in this log millisecond. -/
def sootCount (l : List ((BitVec 16 × Option Nat) × Nat × Nat)) (g : BitVec 16 × Option Nat) : Nat × Nat :=
  match l.find? fun x => x.1 == g with
  | none => (0, 0)
  | some x => x.2

/-- The number of the log millisecond that the log base now stands in (R505). -/
def logMillisecond (s : State) : Nat := baseE (baseAt s (logBase s)) / 1000000

/-- Ends the log millisecond: an entry 0x2C08 for each group that lost entries, and the count starts afresh (R505). -/
def closeMillisecond (s : State) : State :=
  let groups := s.recov.written
  let s := { s with recov := { s.recov with written := [] } }
  let s := groups.reverse.foldl (fun (s : State) g =>
    if g.2.2 = 0 then s
    else sootPut s 0x2C08 (g.1.2.map fun c => ctxTag s c) g.1.1.toNat g.2.2) s
  { s with recov := { s.recov with logMs := logMillisecond s } }

/-- Writes an entry of the Soot log, or counts it as suppressed past 1,024 of its group in one log millisecond (R505).
A millisecond that has gone by is ended first. -/
def soot (s : State) (ev : Nat) (tag : Option (BitVec 14)) (a b : Nat) : State :=
  let s := if logMillisecond s = s.recov.logMs then s else closeMillisecond s
  let g := sootGroup ev tag
  let n := sootCount s.recov.written g
  let rest := s.recov.written.filter fun x => x.1 != g
  if n.1 < 1024 then
    sootPut { s with recov := { s.recov with written := (g, n.1 + 1, n.2) :: rest } } ev tag a b
  else
    bump { s with recov := { s.recov with written := (g, n.1, n.2 + 1) :: rest } } 0x2C00 5

/-- A Soot log entry of work of context `c`. -/
def sootCtx (s : State) (c ev a b : Nat) : State := soot s ev (some (ctxTag s c)) a b

/-! ### EMCY (R525) -/

/-- The error register (0x1001:00): a bit for each standing condition, and bit 0 whenever any is set (R525, R538). -/
def errorRegister (conds : List (BitVec 16)) : Byte :=
  let m := conds.foldl (fun (m : Nat) c =>
    m ||| (match c.toNat with
      | 0xFF01 => 0x80 | 0x5000 => 0x01 | 0x4210 => 0x08 | 0x3120 => 0x04 | 0x8100 => 0x10 | 0x6100 => 0x01 | _ => 0)) 0
  BitVec.ofNat 8 (if m = 0 then 0 else m ||| 1)

/-- An EMCY event: sent, or waiting for the inhibit time, or past four waiting counted in 0x1003 only (R525). Nothing is
sent while Stopped (R523), nor before the boot-up message (DEDUCED, notes/assumptions/36). -/
def emcy (s : State) (code : Nat) (man : Bytes) : State :=
  let conds := if code = 0 then s.mgmt.conditions.filter (fun c => c.toNat != leNat man)
    else if s.mgmt.conditions.any (fun c => c.toNat == code) then s.mgmt.conditions
    else s.mgmt.conditions ++ [BitVec.ofNat 16 code]
  let m : Emcy := { code := BitVec.ofNat 16 code, reg := errorRegister conds, man := man.take 5 ++ List.replicate (5 - man.length) 0 }
  let field := BitVec.ofNat 32 (code + 65536 * leNat (man.take 2))
  let s := { s with mgmt := { s.mgmt with conditions := conds, errors := (field :: s.mgmt.errors).take 16 } }
  let frame := toLe 2 code ++ [m.reg] ++ m.man
  if s.mgmt.nmt = .stopped || s.mgmt.nmt = .bootUp then s
  else if s.mgmt.inhibited then
    if s.mgmt.emcy.length < 4 then { s with mgmt := { s.mgmt with emcy := s.mgmt.emcy ++ [m] } } else s
  else emit { s with mgmt := { s.mgmt with inhibited := decide (0 < reg s 0x1015 0 100) } }
    (.can (0x080 + s.mgmt.nodeId) frame)

/-! ### Domains -/

/-- A domain before anything has happened to it: domain 35 never leaves On (R544), and 8, 9 and 32–35 keep policy 0 (R547). -/
def domDefault (d : Nat) : Domain :=
  if d = 35 then { Domain.reset with state := .on, vdd := 750, policy := 0, open_ := true }
  else if d = 8 ∨ d = 9 ∨ (32 ≤ d ∧ d ≤ 34) then { Domain.reset with policy := 0 }
  else Domain.reset

/-- Domain `d` (R544). -/
def domAt (s : State) (d : Nat) : Domain := tabGet (domDefault d) s.power.domains d

/-- Writes domain `d`. -/
def setDom (s : State) (d : Nat) (x : Domain) : State :=
  { s with power := { s.power with domains := tabSet (domDefault d) s.power.domains d x } }

/-- Whether a domain carries work: On, not changing, not retired and reopened (R71, R545). -/
def domOpen (s : State) (d : Nat) : Bool :=
  let x := domAt s d
  x.state == .on && x.changing == none && !x.retired && x.open_

/-- Whether a domain is On, reopened or not. -/
def domIsOn (s : State) (d : Nat) : Bool :=
  let x := domAt s d
  x.state == .on && x.changing == none && !x.retired

/-- The state code of 0x2D20:02 (R568). -/
def domCode (x : Domain) : Nat :=
  if x.retired then 3
  else if x.changing ≠ none then 4
  else match x.state with | .on => 0 | .banked => 1 | .cold => 2

/-- Whether a domain carries draught gauges (R44): all but ports and always-on. -/
def gauged (d : Nat) : Bool := 8 ≤ d && d ≤ 34

/-- The domain of a gauge (R44). -/
def gaugeDomain (g : Nat) : Nat :=
  if g < 4 then 8
  else if g < 8 then 9
  else if g < 32 then 10 + (g - 8) / 6
  else if g < 52 then 14 + (g - 32) / 5
  else if g < 64 then 18 + (g - 52) / 2
  else if g < 88 then 24 + (g - 64) / 3
  else if g < 92 then 32
  else 33 + (g - 92) / 2

/-- The gauges of a domain. -/
def domainGauges (d : Nat) : List Nat := (List.range 96).filter fun g => gaugeDomain g == d

/-! ### Requests to the dictionary -/

/-- Abort codes (R518). -/
def abTimeout : BitVec 32 := 0x05040000
def abSpecifier : BitVec 32 := 0x05040001
def abOrder : BitVec 32 := 0x05040003
def abMemory : BitVec 32 := 0x05040005
def abAccess : BitVec 32 := 0x06010000
def abWo : BitVec 32 := 0x06010001
def abRo : BitVec 32 := 0x06010002
def abExist : BitVec 32 := 0x06020000
def abLength : BitVec 32 := 0x06070010
def abLong : BitVec 32 := 0x06070012
def abShort : BitVec 32 := 0x06070013
def abSub : BitVec 32 := 0x06090011
def abRange : BitVec 32 := 0x06090030
def abSign : BitVec 32 := 0x08000020
def abBusy : BitVec 32 := 0x08000021
def abState : BitVec 32 := 0x08000022

/-- The path of a requester. -/
def pathOf (q : Requester) : Path :=
  match q with
  | .tap => .tap
  | .can _ => .can
  | .mesh _ _ => .mailbox

/-- Grant `g` (R540). -/
def grantAt (s : State) (g : Nat) : BitVec 128 := tabGet 0 s.mgmt.grants g

/-- Whether a grant names a requester (R515, R540). -/
def grantNames (g : BitVec 128) (q : Requester) : Bool :=
  let v := g.toNat
  match q with
  | .tap => false
  | .can n => v % 256 == 1 && bits v 31 16 == n.toNat
  | .mesh x y => v % 256 == 2 && bits v 31 16 == x.toNat && bits v 47 32 == y.toNat

/-- The scope of a requester (R515, R516): context mask and block flag, the union of the grants that name it. -/
def scopeOf (s : State) (q : Requester) : Nat × Bool :=
  match q with
  | .tap => (2 ^ 64 - 1, true)
  | _ =>
    (List.range 16).foldl (fun (m : Nat × Bool) k =>
      let g := grantAt s k
      if grantNames g q then (m.1 ||| bits g.toNat 127 64, m.2 || bit g.toNat 8) else m) (0, false)

/-- Whether a requester holds integrator level: a grant names it, or it is the TAP. -/
def isIntegrator (s : State) (q : Requester) : Bool :=
  match q with
  | .tap => true
  | _ => (List.range 16).any fun k => grantNames (grantAt s k) q

/-- Owner of a send session (0x2910+s:01); 0xFF for none (R432). -/
def sessOwner (s : State) (k : Nat) : Nat := reg s (0x2910 + k) 1 0xFF

/-- Whether a write to an index is in the scope of a requester (R516). -/
def inScope (s : State) (q : Requester) (i : Nat) : Bool :=
  let sc := scopeOf s q
  if 0x3000 ≤ i && i < 0x3400 then bit sc.1 ((i - 0x3000) / 16)
  else if 0x2910 ≤ i && i < 0x2950 then
    let o := sessOwner s (i - 0x2910)
    if o < 64 then bit sc.1 o else sc.2
  else sc.2

/-- The open transfer of a path (R531). -/
def xferOf (s : State) (p : Path) : Option Transfer :=
  match p with
  | .can => s.mgmt.canX
  | .mailbox => s.mgmt.boxX
  | .tap => s.mgmt.tapX

/-- Sets the open transfer of a path. -/
def setXfer (s : State) (p : Path) (t : Option Transfer) : State :=
  match p with
  | .can => { s with mgmt := { s.mgmt with canX := t } }
  | .mailbox => { s with mgmt := { s.mgmt with boxX := t } }
  | .tap => { s with mgmt := { s.mgmt with tapX := t } }

/-- The objects that take a signed fragment (R266, R301, R384). -/
def isFragment (i sub : Nat) : Bool :=
  0x3000 ≤ i && i < 0x3400 && ((i % 16 = 4 && sub = 5) || (i % 16 = 5 && sub = 0x0A) || (i % 16 = 7 && sub = 4))

/-- Ends the open transfer of a path without effect (R520): a fragment gives up the staging area (R537). -/
def closeXfer (s : State) (p : Path) : State :=
  match xferOf s p with
  | none => s
  | some t =>
    let s := setXfer s p none
    if !t.upload && isFragment t.index t.sub then put s 0x2020 4 0 else s

/-- Whether another path has an open transfer on the object (R531). -/
def otherOpen (s : State) (q : Requester) (i sub : Nat) : Bool :=
  [Path.can, Path.mailbox, Path.tap].any fun p =>
    p != pathOf q && (match xferOf s p with | none => false | some t => t.index == i && t.sub == sub)

/-- Whether the dictionary is served (R564). -/
def served (s : State) : Bool := s.sys.boot == .starting || s.sys.boot == .running

/-- Checks 1 and 2 of R519: existence, access and level. -/
def accessAbort (s : State) (q : Requester) (i sub : Nat) : Option (BitVec 32) :=
  if !indexAssigned i then some abExist
  else match findRow i sub with
    | none => some abSub
    | some r =>
      if 0x2910 ≤ i && i < 0x2950 && r.acc != .ro && !inScope s q i then some abAccess
      else match r.acc with
        | .ro => some abRo
        | .rw => none
        | .wo => if inScope s q i then none else some abAccess
        | .rwi => if inScope s q i then none else some abAccess

/-- Check 4 of R519 for an object of fixed size (R514). -/
def lengthAbort (r : Row) (data : Bytes) : Option (BitVec 32) :=
  match tyBytes r.ty with
  | none => none
  | some n => if data.length = n then none else some abLength

/-- The value of bytes as the integer of a type. -/
def tyValue (t : OTy) (data : Bytes) : Int :=
  match t with
  | .i n => signed (8 * n) (leNat data)
  | _ => (leNat data : Int)

/-- Whether a value lies in its row's range (R75, R518): type, reserved bits and interval. -/
def inRange (r : Row) (data : Bytes) : Bool :=
  let v := tyValue r.ty data
  (r.ty != .bool || v ≤ 1) &&
  (match r.rng with
    | .any => true
    | .between lo hi => lo ≤ v && v ≤ hi
    | .mask m => leNat data &&& m == 0)

/-- Checks 1 to 5 of R519, in order, as far as the tables give them. -/
def writeAbort (s : State) (q : Requester) (i sub : Nat) (data : Bytes) : Option (BitVec 32) :=
  if !served s then some abState
  else match accessAbort s q i sub with
    | some a => some a
    | none =>
      if otherOpen s q i sub then some abBusy
      else match findRow i sub with
        | none => some abSub
        | some r =>
          match lengthAbort r data with
          | some a => some a
          | none => if inRange r data then none else some abRange

/-- Whether a request is seen at all: on CAN FD none is while Stopped (R523), nor on the mailbox while the Flue is down (R529). -/
def heard (s : State) (q : Requester) : Bool :=
  match q with
  | .can _ => s.mgmt.nmt != .stopped
  | .mesh _ _ => !flueDown s
  | .tap => true

/-- The answer to a request. -/
def respond (s : State) (q : Requester) (i sub : Nat) (abort : BitVec 32) (data : Bytes) : State :=
  emit s (.response q i sub abort data)

/-- The select copy that serves a requester (R521): 0 CAN FD, 1 TAP, 2 shared, 3 + g for grant g. -/
def copyOf (s : State) (q : Requester) : Nat :=
  match q with
  | .can _ => 0
  | .tap => 1
  | .mesh _ _ =>
    match (List.range 16).find? fun g => grantNames (grantAt s g) q with
    | none => 2
    | some g => 3 + g

/-- The selection held for a requester (every select subindex defaults to 0). -/
def selected (s : State) (q : Requester) (i sub : Nat) : Nat :=
  tabGet 0 s.selects (copyOf s q * 2 ^ 24 + objKey i sub)

/-- Makes a selection for a requester. -/
def setSelected (s : State) (q : Requester) (i sub v : Nat) : State :=
  { s with selects := tabSet 0 s.selects (copyOf s q * 2 ^ 24 + objKey i sub) v }

/-- The selection under which a P object that lies behind a select subindex is written (R127, R334, R540, R568). -/
def pSelection (s : State) (q : Requester) (i sub : Nat) : Nat :=
  if i = 0x2010 then selected s q i 1
  else if 0x2120 ≤ i && i < 0x2128 && sub = 2 then selected s q i 1
  else if i = 0x2700 && sub = 8 then selected s q i 7
  else if i = 0x2D20 && sub = 3 then selected s q i 1
  else 0

/-- After an accepted write to a P object the value goes to the wafer controller's store (R517). -/
def sendP (s : State) (i sub sel : Nat) (data : Bytes) : State :=
  { s with mgmt := { s.mgmt with pSending := s.mgmt.pSending ++ [{ index := i, sub := sub, sel := sel, data := data }] } }

/-- Whether an object is of retention class P (R554). -/
def isP (i sub : Nat) : Bool :=
  match findRow i sub with
  | none => false
  | some r => r.ret == .p

/-- What an object's own rules answer to a write: done, refused with nothing changed, or refused with the refusal
itself recorded (R118, R478). -/
inductive Ans where
  | ok (s : State)
  | error (abort : BitVec 32)
  | errorIn (abort : BitVec 32) (s : State)

/-- A write with its own effect: the dictionary's checks of R519, a zero-byte download accepted without effect (R520),
then the object's own rules `go`; an aborted write changes nothing (R518). A P value then goes to the store (R517). -/
def write (s : State) (q : Requester) (i sub : Nat) (data : Bytes) (go : State → Ans) : Ans :=
  if data.isEmpty && served s && (accessAbort s q i sub).isNone && !otherOpen s q i sub then .ok s
  else match writeAbort s q i sub data with
    | some a => .error a
    | none =>
      match go s with
      | .error a => .error a
      | .errorIn a t => .errorIn a t
      | .ok t => .ok (if isP i sub then sendP t i sub (pSelection s q i sub) data else t)

/-- A write as a request, with its answer. A requester that is not heard is not served (R523). -/
def request (s : State) (q : Requester) (i sub : Nat) (data : Bytes) (go : State → Ans) : State :=
  if !heard s q then s
  else match write s q i sub data go with
    | .error a => respond s q i sub a []
    | .errorIn a t => respond t q i sub a []
    | .ok t => respond t q i sub 0 []

/-- The checks of a read (R515, R531, R564). -/
def readAbort (s : State) (q : Requester) (i sub : Nat) : Option (BitVec 32) :=
  if !served s then some abState
  else if !indexAssigned i then some abExist
  else match findRow i sub with
    | none => some abSub
    | some r => if r.acc == .wo then some abWo else if otherOpen s q i sub then some abBusy else none

/-- A read as a request: `go` gives the bytes and what the read changes. -/
def readRequest (s : State) (q : Requester) (i sub : Nat) (go : State → Bytes × State) : State :=
  if !heard s q then s
  else match readAbort s q i sub with
    | some a => respond s q i sub a []
    | none => respond (go s).2 q i sub 0 (go s).1

/-! ### Scratchpads and progress (R481, R501) -/

/-- Engines (R481): 1 Grate and feature stage, 2 Garnet, 3 Opal, 4 Hearth, 5 Chimney. A progress event of context `c`. -/
def progress (s : State) (c e : Nat) : State :=
  bump s (cb c 0x0C) (5 + e)

/-- Writes a scratchpad sample, unless the ring is frozen (R501): the newest 16 of each engine are kept, oldest first. -/
def sample (s : State) (c e : Nat) (x : Sample) : State :=
  let k := ctxAt s c
  if k.frozen then s
  else
    let l := tabGet [] k.scratch e ++ [x]
    setCtx s c { k with scratch := tabSet [] k.scratch e (l.drop (l.length - 16)) }

/-- A sample at this instant. -/
def sampleNow (s : State) (c e kind prog instr ref : Nat) (data : Bytes) : State :=
  sample s c e
    { n := (baseAt s (admBase s)).n, kind := kind, prog := prog, instr := instr, ref := BitVec.ofNat 64 ref,
      data := data.take 16 ++ List.replicate (16 - data.length) 0 }

end Sys2Proof.Machine
end

