-- ==== Sys2Proof/Machine/DomainOps.lean ====
section
/-! DEFINITION. Requests for a change of a power domain's state (18): they start a change, or wait for the one under way. -/

namespace Sys2Proof.Machine

/-- A request that a domain come On (R545, R547, R548, R589): none for a retired domain, or for one held Cold by a thermal
shutdown. -/
def requestOn (s : State) (d : Nat) : State :=
  let x := domAt s d
  if x.retired || x.thermal then s
  else match x.changing with
    | none => if x.state = .on then s else setDom s d { x with changing := some .on }
    | some .on => setDom s d { x with queued := none }
    | some _ => setDom s d { x with queued := some .on }

/-- Requests that several domains come On. -/
def requestAllOn (s : State) (ds : List Nat) : State := ds.foldl requestOn s

end Sys2Proof.Machine
end

