-- ==== Sys2Proof/Machine/PortOps.lean ====
section
/-! DEFINITION. Ports and their gate control lists (03): access to a port's record, and the times at which a gate is
open. -/

namespace Sys2Proof.Machine

/-- Port `p`. -/
def portAt (s : State) (p : Nat) : Port := tabGet Port.reset s.net.ports p

/-- Writes port `p`. -/
def setPort (s : State) (p : Nat) (x : Port) : State :=
  { s with net := { s.net with ports := tabSet Port.reset s.net.ports p x } }

/-- The numbers of the ports. -/
def allPorts : List Nat := List.range 8

/-- The speed of a link that is up. -/
def linkSpeed (x : Port) : Option Speed :=
  match x.link with
  | .up10 => some .g10
  | .up25 => some .g25
  | _ => none

/-- Whether a port's link is up. -/
def linkUp (x : Port) : Bool := (linkSpeed x).isSome

/-- Byte time of a port; that of 25G while the link is down. -/
def portByte (x : Port) : Time := byteTime ((linkSpeed x).getD .g25)

/-- Maximum frame length of a port (0x2100+p:05). -/
def lmax (s : State) (p : Nat) : Nat := val s (0x2100 + p) 5

/-- The gate time base of a port (0x2100+p:07). -/
def gateBase (s : State) (p : Nat) : Nat := val s (0x2100 + p) 7 % 4

/-- Gates that an empty list holds: those of 0x2130+p:06 (R116, R128). -/
def adminStates (s : State) (p : Nat) : Byte := BitVec.ofNat 8 (val s (0x2130 + p) 6)

/-- Gates of a list over one cycle, as segments: entry number, start and end offset, gates (R116). An interval that
passes the cycle's end is cut there, and the last entry's gates hold until the cycle ends; where the last entry's own
INTERVAL is 0, that stretch is a window all the same (DESIGN CHOICE, notes/assumptions/46). `states` are the gates of an empty
list. -/
def gateSegments (l : List GateEntry) (states : Byte) (cycle : Nat) : List (Nat × Nat × Nat × Byte) :=
  match l with
  | [] => [(0, 0, cycle, states)]
  | _ =>
    let r := l.foldl (fun (a : List (Nat × Nat × Nat × Byte) × Nat) e =>
      let k := a.1.length
      let stop := if k + 1 = l.length then cycle else min cycle (a.2 + e.interval)
      (a.1 ++ [(k, min cycle a.2, stop, e.gates)], a.2 + e.interval)) ([], 0)
    r.1

/-- The entry in force at offset `o` of a cycle; entries of no length open no window (R116). -/
def gateSegmentAt (segs : List (Nat × Nat × Nat × Byte)) (o : Nat) : Option (Nat × Nat × Nat × Byte) :=
  segs.find? fun x => x.2.1 ≤ o && o < x.2.2.1

/-- The entries that a whole cycle applies: all where their intervals fit into it, otherwise those that begin before its
end (R116). -/
def cycleEntries (l : List GateEntry) (cycle : Nat) : List GateEntry :=
  if (l.map (·.interval)).sum ≤ cycle then l
  else (l.foldl (fun (a : List GateEntry × Nat) e =>
    (if a.2 < cycle then a.1 ++ [e] else a.1, a.2 + e.interval)) ([], 0)).1

/-- Whether the MAC holds preemptable frames after the operations of some entries (R115). -/
def holdAfter (h : Bool) (l : List GateEntry) : Bool :=
  l.foldl (fun h e => if e.op = 1 then true else if e.op = 2 then false else h) h

/-- The cycle length of a running list, at least 1 so that a cycle has an end. -/
def gateCycle (g : GateList) : Nat := max 1 g.cycle

/-- Offset of base time `t` in the cycle of a running list. -/
def gateOffset (g : GateList) (t : Nat) : Nat :=
  ((t : Int) - (g.base : Int)).toNat % gateCycle g

/-- The first cycle start of a list at or after base time `t`: base + N · cycle (R116, R118). -/
def gateCycleStart (base cycle t : Nat) : Nat :=
  if t ≤ base then base else base + cdiv (t - base) (max 1 cycle) * max 1 cycle

/-- The gates that a running list gives at base time `t`; before its first cycle start they stand as they are. Once a cycle
has ended, every operation of the list has been applied before those of the cycle that holds `t`. -/
def gateRun (g : GateList) (states : Byte) (t : Nat) : GateList :=
  if t < g.since then g
  else
    match gateSegmentAt (gateSegments g.list states (gateCycle g)) (gateOffset g t) with
    | none => g
    | some x =>
      let before := if g.since + gateCycle g ≤ t then holdAfter g.held (cycleEntries g.list (gateCycle g)) else g.held
      { g with pos := x.1, gates := x.2.2.2, held := holdAfter before (g.list.take (x.1 + 1)) }

/-- The stretches of base time in which a list keeps the gate of class `t` open, over three cycles from the one that holds
`from_`, none of them before `from_`; and the end of the third cycle. -/
def listOpenings (l : List GateEntry) (states : Byte) (base cycle from_ t : Nat) : List (Nat × Nat) × Nat :=
  let cyc := max 1 cycle
  let start := from_ - ((from_ : Int) - (base : Int)).toNat % cyc
  let all := (List.range 3).flatMap fun k =>
    (gateSegments l states cyc).filterMap fun x =>
      let a := max from_ (start + k * cyc + x.2.1)
      let b := start + k * cyc + x.2.2.1
      if bit x.2.2.2.toNat t && a < b then some (a, b) else none
  (all, start + 3 * cyc)

/-- Stretches that touch, joined. -/
def joinStretches (l : List (Nat × Nat)) : List (Nat × Nat) :=
  l.foldl (fun acc x =>
    match acc.getLast? with
    | some y => if y.2 = x.1 then acc.dropLast ++ [(y.1, x.2)] else acc ++ [x]
    | none => [x]) []

/-- The stretches of base time from `now` on in which the gate of class `t` of a port is open: as it stands until the running
list starts, then by that list, and from its start by a change that is pending (R116–R119). With them the time up to which
they are reckoned, and the length of the last list's cycle. -/
def gateOpenings (s : State) (p now t : Nat) : List (Nat × Nat) × Nat × Nat :=
  let x := portAt s p
  let g := x.oper
  let first := if now < g.since && bit g.gates.toNat t then [(now, g.since)] else []
  let run := listOpenings g.list (adminStates s p) g.base g.cycle (max now g.since) t
  match x.change with
  | none => (joinStretches (first ++ run.1), run.2, gateCycle g)
  | some c =>
    if run.2 ≤ c.start then (joinStretches (first ++ run.1), run.2, gateCycle g)
    else
      let until_ := (first ++ run.1).filterMap fun y => if y.1 < c.start then some (y.1, min y.2 c.start) else none
      let next := listOpenings c.list (adminStates s p) c.base c.cycle (max now c.start) t
      (joinStretches (until_ ++ next.1), next.2, max 1 c.cycle)

/-- How long from `off` ns after now (of the gate base) until the gate of class `t` is open for `dur` ns without a break
(R117, R63); none where the list never opens so long. A gate that is open for a whole cycle stays open. Gate enable FALSE
opens every gate (R128). -/
def gateWaitFrom (s : State) (p t dur off : Nat) : Option Nat :=
  if val s (0x2130 + p) 1 = 0 then some 0
  else
    let now := baseE (baseAt s (gateBase s p)) + off
    let o := gateOpenings s p now t
    let fits := o.1.filterMap fun x =>
      let a := max now x.1
      if now < x.2 && (a + dur ≤ x.2 || (x.2 = o.2.1 && x.1 + o.2.2 ≤ x.2)) then some (a - now) else none
    fits.head?

/-- How long from now until the gate of class `t` is open for `dur` ns without a break. -/
def gateWait (s : State) (p t dur : Nat) : Option Nat := gateWaitFrom s p t dur 0

/-- Whether the gate of class `t` stays open from now for `dur` ns. -/
def gateOpenFor (s : State) (p t dur : Nat) : Bool := gateWait s p t dur == some 0

/-- Whether the gate of class `t` is open as the list stands: Gate enable FALSE opens every gate (R128). -/
def gateOpen (s : State) (p t : Nat) : Bool :=
  let g := (portAt s p).oper
  val s (0x2130 + p) 1 = 0 || bit (if g.list.isEmpty then adminStates s p else g.gates).toNat t

/-- Whether frame preemption is active (R121). -/
def preemptActive (s : State) (p : Nat) : Bool := val s (0x2110 + p) 3 = 2

/-- Whether the list holds the preemptable MAC (R115): a held MAC starts no preemptable frame while preemption is active. -/
def macHeld (s : State) (p : Nat) : Bool :=
  val s (0x2130 + p) 1 ≠ 0 && (portAt s p).oper.held && preemptActive s p

/-- After a step of the gate base the list restarts at the next cycle start in the stepped time (R119). -/
def gateRestart (s : State) (p : Nat) : State :=
  let x := portAt s p
  let now := baseE (baseAt s (gateBase s p))
  setPort s p { x with oper := { x.oper with since := gateCycleStart x.oper.base x.oper.cycle now } }

/-! ### Stamps (R146–R148) -/

/-- Mode value of the ingress and egress latency constants, in ps (R146). -/
def latencyMode (x : Port) : Int × Int :=
  match x.link, x.fec with
  | .up25, false => (9850, 8900)
  | .up25, true => (61850, 56900)
  | .up10, _ => (22400, 20300)
  | _, _ => (0, 0)

/-- Ingress latency constant in force, in ps: mode value plus trim, 0 while the link is down (R146, R168). -/
def latencyIn (s : State) (p : Nat) : Int :=
  if linkUp (portAt s p) then (latencyMode (portAt s p)).1 + ival 4 s (0x2240 + p) 2 else 0

/-- Egress latency constant in force, in ps. -/
def latencyOut (s : State) (p : Nat) : Int :=
  if linkUp (portAt s p) then (latencyMode (portAt s p)).2 + ival 4 s (0x2240 + p) 3 else 0

/-- A time at the stamp resolution of 2^-16 ns (R146). -/
def stampTime (t : Time) : Time := t / 78125 * 78125

/-- N and F of a time; a time before the base's zero wraps like the counter (R146). -/
def stampOf (t : Time) : BitVec 32 × BitVec 16 :=
  let u := (t / 78125 % 2 ^ 48).toNat
  (BitVec.ofNat 32 (u / 65536), BitVec.ofNat 16 u)

/-- Ingress stamp of this instant on base `n`. -/
def ingressTime (s : State) (p n : Nat) : Time := stampTime (baseNow (baseAt s n) - ps (latencyIn s p))

/-- Egress stamp of this instant on base `n`. -/
def egressTime (s : State) (p n : Nat) : Time := stampTime (baseNow (baseAt s n) + ps (latencyOut s p))

/-- Ingress stamps on the four bases. -/
def ingressStamps (s : State) (p : Nat) : List (BitVec 32 × BitVec 16) :=
  (List.range 4).map fun n => stampOf (ingressTime s p n)

/-- Egress stamps on the four bases. -/
def egressStamps (s : State) (p : Nat) : List (BitVec 32 × BitVec 16) :=
  (List.range 4).map fun n => stampOf (egressTime s p n)

/-- Writes one entry of a port's filter table (R98). -/
def setFilter (s : State) (p idx : Nat) (e : BitVec 256) : State :=
  let x := portAt s p
  setPort s p { x with filters := tabSet 0 x.filters idx e }

/-- A word of a filter entry (R92). -/
def filterWord (e : BitVec 256) (k : Nat) : Nat := bits e.toNat (32 * k + 31) (32 * k)

/-- A filter entry from its words. -/
def filterOf (ws : List Nat) : BitVec 256 := BitVec.ofNat 256 (leNat (ws.flatMap (toLe 4)))

/-- Puts a frame into a port's firmware transmit queue of 16 (R113); one that finds it full is dropped (DESIGN CHOICE: the
spec does not say what becomes of it, notes/assumptions/46). -/
def fwSend (s : State) (p : Nat) (f : TxFrame) : State :=
  let x := portAt s p
  if x.fwQueue.length < 16 then setPort s p { x with fwQueue := x.fwQueue ++ [f] } else s

/-! ### Frames as they leave (R111, R120–R122) -/

/-- A frame on the wire with FCS, after padding (R111). -/
def wireLength (n : Nat) : Nat := max n 60 + 4

/-- A frame padded to 60 bytes, with zeros (R111; DESIGN CHOICE: the spec gives the pad bytes no value,
notes/assumptions/46). -/
def padded (d : Bytes) : Bytes := d ++ List.replicate (60 - d.length) 0

/-- The FCS of bytes as it leaves (R114). -/
def fcsBytes (d : Bytes) : Bytes := toLe 4 (fcs32 d)

/-- The bitwise complement of the FCS (R114). -/
def stompBytes (d : Bytes) : Bytes := (fcsBytes d).map fun b => ~~~b

/-- The mCRC that ends a fragment: the FCS of the frame's bytes so far, its first two bytes inverted (PRESUMED from Clause 99 of
IEEE 802.3, notes/assumptions/46). -/
def mcrcBytes (d : Bytes) : Bytes := toLe 4 (fcs32 d ^^^ 0x0000FFFF)

/-- Bytes that a fragment of a frame in transmission has sent after its preamble of 8. -/
def fragmentSent (s : State) (p : Nat) (t : TxNow) : Nat :=
  min (t.wire.length - t.sent) (((elapsed s - t.start) / portByte (portAt s p)).toNat - 8)

/-- The bytes that the fragment now leaving carries when its frame yields at its next preemption point: the fragment is at
least 64 · (1 + addFragSize) bytes with its mCRC, and at least 64 bytes with the FCS remain (R121; the second figure DEDUCED from
R122, notes/assumptions/46). None where no such point is left. -/
def preemptPoint (s : State) (p : Nat) (t : TxNow) : Option Nat :=
  let k := max (64 * (1 + (portAt s p).frag) - 4) (fragmentSent s p t)
  if k + 64 ≤ t.wire.length - t.sent then some k else none

/-- When the wire is free after a fragment of `k` bytes: its preamble, mCRC and the inter-frame gap go with it. -/
def fragmentEnd (s : State) (p : Nat) (t : TxNow) (k : Nat) : Time :=
  t.start + ((8 + k + 16 : Nat) : Int) * portByte (portAt s p)

/-- When the wire is free after the rest of a frame and its inter-frame gap. -/
def frameEnd (s : State) (p : Nat) (t : TxNow) : Time :=
  t.start + ((8 + (t.wire.length - t.sent) + 12 : Nat) : Int) * portByte (portAt s p)

/-- How long from now until the gap after what left a port last has passed. -/
def idleWait (s : State) (p : Nat) : Time := max 0 ((portAt s p).idleAt - elapsed s)

/-- The gap after what leaves a port at this instant: `n` byte times from now. -/
def leaveGap (s : State) (p n : Nat) : State :=
  let x := portAt s p
  setPort s p { x with idleAt := elapsed s + (n : Int) * portByte x }

/-- The sum of the 16-bit big-endian words of a byte string, an odd last byte padded with zero. -/
def sumWords (l : Bytes) : Nat :=
  match l with
  | a :: b :: l => a.toNat * 256 + b.toNat + sumWords l
  | [a] => a.toNat * 256
  | [] => 0

/-- The ones'-complement checksum of a byte string (RFC 791): 0 over a header that holds its own checksum. -/
def ipChecksum (h : Bytes) : Nat :=
  let x := sumWords h
  let x := x % 65536 + x / 65536
  let x := x % 65536 + x / 65536
  (65535 - x % 65536) % 65536

end Sys2Proof.Machine
end

