-- ==== Sys2Proof/Machine/Quartz.lean ====
section
/-! DEFINITION. Quartz (04): the time bases and their discipline, the PTP instances, pulse outputs and capture inputs. -/

namespace Sys2Proof.Machine

/-! ### The bases -/

/-- The count of a base in 2^-40 / (5 · 10^9) ns: N, F, the internal fraction and its residue. -/
def baseUnits (b : Base) : Nat := ((b.n.toNat * 2 ^ 16 + b.f.toNat) * 2 ^ 24 + b.g.toNat) * 5000000000 + b.residue

/-- One nominal time-base cycle: 1.6 · (1 + ρ · 2^-40) ns is added for each cycle of the base's own clock, which runs as far off
625 MHz as the reference that its PLL follows or has last followed (R132, R134). -/
def baseCycle (b : Base) : Base :=
  let v := baseUnits b + (8 * (2 ^ 40 + b.rho) * (1000000000 + b.ppb)).toNat
  let whole := v / 5000000000
  { b with
    residue := v % 5000000000, g := BitVec.ofNat 24 whole, f := BitVec.ofNat 16 (whole / 2 ^ 24),
    n := BitVec.ofNat 32 (whole / 2 ^ 40), pendingWrap := b.pendingWrap || decide (2 ^ 72 ≤ whole) }

/-- What an idle step does: one cycle of the 625 MHz clock on the four bases (R132). -/
def tick (s : State) : State :=
  let s := (List.range 4).foldl (fun s n => setBase s n (baseCycle (baseAt s n))) s
  { s with sys := { s.sys with cycles := s.sys.cycles + 1 } }

/-- BASE_WRAP (R136): N wraps and the wrap event is raised. Where idle steps have already carried N past its wrap only
the event is raised. -/
def execBaseWrap (n : BitVec 2) (s : State) : Host.Outcome State Fault Refusal :=
  let b := baseAt s n.toNat
  .next (
    if b.pendingWrap then setBase s n.toNat { b with wrapRaised := true }
    else setBase s n.toNat { b with n := 0, f := 0, g := 0, residue := 0, pendingWrap := true, wrapRaised := true })

/-- EPOCH_INCREMENT (R136): the Stoker acknowledges the wrap. -/
def execEpochIncrement (n : BitVec 2) (s : State) : Host.Outcome State Fault Refusal :=
  let b := baseAt s n.toNat
  .next (
    if b.pendingWrap && b.wrapRaised then
      setBase s n.toNat { b with u := b.u + 1, pendingWrap := false, wrapRaised := false }
    else s)

/-- Whether a base is disciplined by its PTP instance (0x2200+n:03, R142). -/
def ptpDisciplined (s : State) (n : Nat) : Bool := val s (0x2200 + n) 3 == 1

/-- The effect of a rate write: the rate only, and the step window closes (R132, R138). -/
def putRate (s : State) (n : Nat) (rho : Int) : State :=
  let b := baseAt s n
  setBase s n { b with rho := rho, session := if b.session = .armed then .running else b.session }

/-- The rules of 0x2200+n:08 (R133, R142). -/
def writeRate (n : Nat) (data : Bytes) (s : State) : Ans :=
  let v := signed 64 (leNat data)
  if v < -0x20000000 || 0x20000000 < v then .error abRange
  else if ptpDisciplined s n then .error abState
  else .ok (putRate s n v)

/-- RATE_WRITE (R132). -/
def execRateWrite (q : Requester) (n : BitVec 2) (rate : BitVec 64) (s : State) : Host.Outcome State Fault Refusal :=
  .next (request s q (0x2200 + n.toNat) 8 (toLe 8 rate.toNat) (writeRate n.toNat (toLe 8 rate.toNat)))

/-- REFERENCE_LOST (R134): the PLL holds the frequency it had locked. -/
def execReferenceLost (n : BitVec 2) (s : State) : Host.Outcome State Fault Refusal :=
  let b := baseAt s n.toNat
  .next (if b.refStatus = 2 then s else soot (setBase s n.toNat { b with refStatus := 2 }) 0x2201 none n.toNat 2)

/-- REFERENCE_LOCKED (R134): the PLL follows the reference at its offset; a base that had lost its reference is logged as
relocked. A reference more than 200 ppm off never locks. -/
def execReferenceLocked (ref : Reference) (s : State) : Host.Outcome State Fault Refusal :=
  let n := ref.base.toNat
  let b := baseAt s n
  let t := setBase s n { b with refStatus := 0, ppb := ref.ppb }
  .next (
    if 200000 < ref.ppb.natAbs then s
    else if b.refStatus = 2 then soot t 0x2201 none n 0 else t)

/-- Arms or re-arms the session of a base; `source` is 0 integrator, 1 PTP instance, 2 auto (R138, R139). -/
def armSession (s : State) (n source : Nat) : State :=
  let b := baseAt s n
  let re := b.session == .running
  let s := if re then bump32 s (0x2200 + n) 0x0C else s
  let s := setBase s n { b with session := .armed }
  soot s 0x2202 none (n + 256 * source + (if re then 65536 else 0)) (baseE b)

/-- The rules of 0x2200+n:05 (R138, R142). -/
def writeSession (n : Nat) (data : Bytes) (s : State) : Ans :=
  let b := baseAt s n
  if ptpDisciplined s n then .error abState
  else if leNat data = 1 then (if b.session = .armed then .error abState else .ok (armSession s n 0))
  else (if b.session = .idle then .error abState else .ok (setBase s n { b with session := .idle }))

/-- SESSION_ARM (R138). -/
def execSessionArm (q : Requester) (n : BitVec 2) (s : State) : Host.Outcome State Fault Refusal :=
  .next (request s q (0x2200 + n.toNat) 5 [1] (writeSession n.toNat [1]))

/-- SESSION_END (R138). -/
def execSessionEnd (q : Requester) (n : BitVec 2) (s : State) : Host.Outcome State Fault Refusal :=
  .next (request s q (0x2200 + n.toNat) 5 [2] (writeSession n.toNat [2]))

/-- The rules of a Step or Set time: accepted once by an Armed base (R138, R142). -/
def writeStep (n : Nat) (p : PendingStep) (s : State) : Ans :=
  let b := baseAt s n
  if ptpDisciplined s n || b.session ≠ .armed || b.step ≠ none then .error abState
  else .ok (setBase s n { b with step := some p })

/-- STEP (R140). -/
def execStep (q : Requester) (n : BitVec 2) (delta : BitVec 64) (s : State) : Host.Outcome State Fault Refusal :=
  .next (request s q (0x2200 + n.toNat) 6 (toLe 8 delta.toNat) (writeStep n.toNat (.by delta.toInt)))

/-- SET_TIME (R140). -/
def execSetTime (q : Requester) (n : BitVec 2) (target : BitVec 64) (s : State) : Host.Outcome State Fault Refusal :=
  .next (request s q (0x2200 + n.toNat) 7 (toLe 8 target.toNat) (writeStep n.toNat (.dest target.toNat)))

/-! ### Applying a step (R140, R141) -/

/-- E:F of a base, in 2^-16 ns. -/
def baseEF (b : Base) : Nat := baseE b * 2 ^ 16 + b.f.toNat

/-- A table with every value moved. -/
def shiftTab (d : Time) (t : Tab Time) : Tab Time := t.filterMap fun x => if x.2 + d = 0 then none else some (x.1, x.2 + d)

/-- Every stamp that admission holds moves by `d` (R141): those of messages, bookings, steps and replies, and the
ledger's free-at times; of the stamps on the four bases, that on the admission base. Decisions already taken stay as they
are (R583). -/
def shiftAdmission (s : State) (d : Time) : State :=
  let base := admBase s
  let onBase (l : List Time) : List Time := (l.zipIdx).map fun x => if x.2 = base then x.1 + d else x.1
  let msg (m : Msg) : Msg :=
    { m with tdp := m.tdp.map (· + d), ndp := ((m.tdp.map fun t => (stampOf (t + d)).1)).getD m.ndp,
             dpStamps := onBase m.dpStamps, deadline := m.deadline.map (· + d), tEnd := m.tEnd.map (· + d),
             arrive := m.arrive + d, stepStart := m.stepStart + d }
  let ost (o : OStep) : OStep := { o with start := o.start + d, deadline := o.deadline.map (· + d) }
  let rep (r : Reply) : Reply :=
    { r with tdp := r.tdp + d, deadline := r.deadline.map (· + d), hold := r.hold + d, start := r.start + d,
             entered := r.entered + d }
  let led := s.work.ledger
  let lane (l : Lane) : Lane := { l with arrived := l.arrived.map fun a => { a with times := onBase a.times } }
  let frame (x : Frame) : Frame := { x with lane := x.lane.map lane }
  { s with
    net := { s.net with frames := s.net.frames.map (fun x => (x.1, x.2.map frame)) }
    work := { s.work with
      taken := []
      msgs := s.work.msgs.map (fun x => (x.1, x.2.map msg))
      ledger := { garnet := led.garnet + d, lanes := shiftTab d led.lanes, hearth := shiftTab d led.hearth,
                  egress := shiftTab d led.egress, order := shiftTab d led.order, instrs := shiftTab d led.instrs }
      access := s.work.access.map (fun x => (x.1, x.2.map fun g => { g with opened := g.opened + d }))
      swept := s.work.swept + d }
    store := { s.store with steps := s.store.steps.map (fun x => (x.1, x.2.map ost)) }
    chim := { s.chim with
      replies := s.chim.replies.map (fun x => (x.1, x.2.map rep))
      groupAt := shiftTab d s.chim.groupAt } }

/-- Pulse output `k`. -/
def pulseAt (s : State) (k : Nat) : Pulse := tabGet Pulse.reset s.quartz.pulses k

/-- Writes pulse output `k`. -/
def setPulse (s : State) (k : Nat) (x : Pulse) : State :=
  { s with quartz := { s.quartz with pulses := tabSet Pulse.reset s.quartz.pulses k x } }

/-- The level that polarity gives to an active or inactive output (R166). -/
def pulseLevel (s : State) (k : Nat) (active : Bool) : Bool := if val s (0x2220 + k) 6 = 1 then !active else active

/-- The first start + n · period that lies after `t`, in 2^-16 ns; the start itself while it is not past (R153, R154). -/
def pulseNext (start period t : Nat) : Nat :=
  if t ≤ start * 2 ^ 16 then start else start + ((t / 2 ^ 16 - start) / max 1 period + 1) * max 1 period

/-- A pulse output whose base has stepped to `now` (R154): edges that a forward step jumps past are fired late in mode 1
and skipped in mode 2. A step back changes nothing: a pending edge fires when its time is reached again. -/
def pulseStepped (s : State) (k now : Nat) : State :=
  let i := 0x2220 + k
  let x := pulseAt s k
  match x.next with
  | none => s
  | some t =>
    if now ≤ t * 2 ^ 16 then s
    else if val s i 2 = 1 then
      let s := setPulse s k { next := none, high := true }
      soot (put (emit s (.pulse k (pulseLevel s k true))) i 7 3) 0x2205 none k 0
    else
      let period := val s i 4
      let n := pulseNext t period now
      let skipped := (n - t) / max 1 period
      let s := setPulse s k { x with next := some n }
      soot (bumpBy 32 s i 8 skipped) 0x2205 none k skipped

/-- The PTP instance of base `n`. -/
def ptpAt (s : State) (n : Nat) : Ptp := tabGet Ptp.reset s.quartz.ptp n

/-- Writes the PTP instance of base `n`. -/
def setPtp (s : State) (n : Nat) (x : Ptp) : State :=
  { s with quartz := { s.quartz with ptp := tabSet Ptp.reset s.quartz.ptp n x } }

/-- The base after a step of `delta` (2^-16 ns): E:F moves, a carry adjusts U, and after a Set time the internal
fraction is clear (R140). -/
def baseStepped (b : Base) (delta : Int) (clear : Bool) : Base :=
  let v := unsign 80 ((baseEF b : Int) + delta)
  { b with
    f := BitVec.ofNat 16 v, n := BitVec.ofNat 32 (v / 2 ^ 16), u := BitVec.ofNat 32 (v / 2 ^ 48),
    g := if clear then 0 else b.g, residue := if clear then 0 else b.residue, step := none,
    session := if b.session = .armed then .running else b.session }

/-- STEP_APPLY (R140, R141): a pending step applies unless a wrap event holds it off. -/
def execStepApply (n : BitVec 2) (s : State) : Host.Outcome State Fault Refusal :=
  let n := n.toNat
  let b := baseAt s n
  .next (
    match b.step with
    | none => s
    | some p =>
      if b.pendingWrap then s
      else
        let delta : Int := match p with | .by d => d | .dest t => (t * 2 ^ 16 : Nat) - (baseEF b : Int)
        let clear := match p with | .by _ => false | .dest _ => true
        let s := soot s 0x2203 none (baseE b) (unsign 64 delta)
        let s := if logBase s = n then closeMillisecond s else s
        let b' := baseStepped b delta clear
        let s := setBase s n b'
        let s := put s (0x2200 + n) 0x0B ((val s (0x2200 + n) 0x0B + 1) % 256)
        let s := if logBase s = n then { s with recov := { s.recov with logMs := logMillisecond s } } else s
        let s := soot s 0x2204 none (baseE b') (val s (0x2200 + n) 0x0B)
        let s := if admBase s = n then shiftAdmission s (frac16 delta) else s
        let s := allPorts.foldl (fun s p => if gateBase s p = n then gateRestart s p else s) s
        let s := (List.range 4).foldl (fun s k => if val s (0x2220 + k) 1 = n then pulseStepped s k (baseEF b') else s) s
        setPtp s n { ptpAt s n with lastSync := none, overs := 0, delayReq := none })

/-- EXTENDED_TIME_READ (R136): E from a snapshot, and the fraction latched. -/
def readExtended (n : Nat) (s : State) : Bytes × State :=
  let b := baseAt s n
  (toLe 8 (baseE b), put s (0x2200 + n) 0x0A b.f.toNat)

/-- EXTENDED_TIME_READ (R136, R164). -/
def execExtendedTimeRead (q : Requester) (n : BitVec 2) (s : State) : Host.Outcome State Fault Refusal :=
  .next (readRequest s q (0x2200 + n.toNat) 9 (readExtended n.toNat))

/-! ### PTP (R143–R145, R158–R162) -/

/-- portState of a port in an instance, as 1588-2019 numbers it (0x2210+n:10). -/
def ptpState (s : State) (n p : Nat) : Nat := bits (val s (0x2210 + n) 0x10) (4 * p + 3) (4 * p)

/-- Sets the portState of a port. -/
def setPtpState (s : State) (n p v : Nat) : State :=
  let x := val s (0x2210 + n) 0x10
  put s (0x2210 + n) 0x10 (x - ptpState s n p * 2 ^ (4 * p) + v * 2 ^ (4 * p))

/-- Whether the instance of base `n` runs on port `p`. -/
def ptpOn (s : State) (n p : Nat) : Bool := val s (0x2210 + n) 1 ≠ 0 && bit (val s (0x2210 + n) 2) p

/-- The rate that the servo writes: a free value held within the slew limit (R145; notes/assumptions/4). -/
def servoRho (s : State) (n k : Nat) : Int :=
  let limit : Int := (val s (0x2210 + n) 0x0F * 2 ^ 40 / 1000000000 : Nat)
  let r := Config.servoRate k
  if r < -limit then -limit else if limit < r then limit else r

/-- A Sync reception on the slave port: the offset is measured, and a disciplined base is stepped at its first
correction, re-armed under R144, or given a rate. -/
def ptpSync (s : State) (n p : Nat) (origin correction ingress : Int) : State :=
  let i := 0x2210 + n
  let x := ptpAt s n
  let t21 := ingress - origin - correction
  let asym := ival 4 s (0x2240 + p) 4 * 65536 / 1000
  let offset := t21 - x.meanDelay - asym
  let s := put s i 0x11 (unsign 64 offset)
  let s := setPtpState s n p 9
  let limit : Int := (val s (0x2200 + n) 0x0E * 65536 : Nat)
  let overs := if limit ≠ 0 && (limit < offset || offset < -limit) then x.overs + 1 else 0
  let x := { x with lastSync := some (origin, ingress), t21 := t21, overs := overs }
  let b := baseAt s n
  if !ptpDisciplined s n then setPtp s n x
  else if b.session = .idle then
    let s := armSession (setPtp s n { x with overs := 0 }) n 1
    setBase s n { baseAt s n with step := some (.by (-offset)) }
  else if 4 ≤ overs && b.session = .running then
    let s := armSession (setPtp s n { x with overs := 0 }) n 2
    setBase s n { baseAt s n with step := some (.by (-offset)) }
  else
    let (k, s) := nextFree (setPtp s n x)
    if b.step = none then putRate s n (servoRho s n k) else s

/-- Message types of 1588-2019: Sync 0, Delay_Req 1, Follow_Up 8, Delay_Resp 9, Announce 11. -/
def ptpType (timer : PtpTimer) : Nat := match timer with | .sync => 0 | .delayReq => 1 | .announce => 11

/-- clockIdentity of an instance: the EUI-64 of the station address of its lowest port (PRESUMED from the standard,
notes/assumptions/15). -/
def ptpIdentity (s : State) (n : Nat) : Nat :=
  let p := (allPorts.find? fun p => bit (val s (0x2210 + n) 2) p).getD 0
  let mac := val s (0x2100 + p) 3
  mac / 2 ^ 24 * 2 ^ 40 + 0xFFFE * 2 ^ 24 + mac % 2 ^ 24

/-- The data set of the instance itself (R165); a slave-only clock has clockClass 255. -/
def ptpOwn (s : State) (n : Nat) : PtpData :=
  let i := 0x2210 + n
  { priority1 := BitVec.ofNat 8 (val s i 6), clockClass := if val s i 1 = 1 then 255 else BitVec.ofNat 8 (val s i 8),
    accuracy := 0xFE, variance := 0xFFFF, priority2 := BitVec.ofNat 8 (val s i 7),
    grandmaster := BitVec.ofNat 64 (ptpIdentity s n), steps := 0, sender := BitVec.ofNat 80 (ptpIdentity s n * 2 ^ 16) }

/-- A message of the instance as a frame without FCS: 1588-2019's common header and body over the configured transport,
multicast or to one peer (R158, R160). `time` is the body's time in 2^-16 ns: its whole nanoseconds stand in the body, and
`correction` in correctionField; `tail` follows the time. PRESUMED: the message format is the standard's, which the spec
names and does not print (notes/assumptions/15). -/
def ptpFrame (s : State) (n p type : Nat) (time correction : Int) (sequence : BitVec 16) (peer : Option PtpPeer) (tail : Bytes) :
    Bytes :=
  let i := 0x2210 + n
  let mac := toBe 6 (val s (0x2100 + p) 3)
  let origin := (time / 65536).toNat
  let stamp := toBe 6 (origin / 1000000000) ++ toBe 4 (origin % 1000000000)
  let gm : PtpData := match (ptpAt s n).parent with
    | some x => { x.data with steps := x.data.steps + 1 }
    | none => ptpOwn s n
  let body :=
    if type = 11 then
      List.replicate 13 0 ++ toBe 1 gm.priority1.toNat ++ toBe 1 gm.clockClass.toNat ++ toBe 1 gm.accuracy.toNat
        ++ toBe 2 gm.variance.toNat ++ toBe 1 gm.priority2.toNat ++ toBe 8 gm.grandmaster.toNat ++ toBe 2 gm.steps.toNat ++ [0xA0]
    else stamp ++ tail
  let log : Int :=
    if type = 11 then ival 4 s i 0x0B else if type = 1 || peer.isSome then 0x7F
    else if type = 9 then ival 4 s i 0x0A else ival 4 s i 9
  let flags : Bytes :=
    [(if type = 0 && val s i 4 = 2 then 2 else 0) + (if peer.isSome then 4 else 0), 8]
  let ctl : Byte := if type = 0 then 0 else if type = 1 then 1 else if type = 8 then 2 else if type = 9 then 3 else 5
  let msg := [BitVec.ofNat 8 type, 0x12] ++ toBe 2 (34 + body.length) ++ toBe 1 (val s i 5) ++ [0] ++ flags
    ++ toBe 8 (unsign 64 correction) ++ List.replicate 4 0 ++ toBe 8 (ptpIdentity s n) ++ toBe 2 (p + 1)
    ++ toBe 2 sequence.toNat ++ [ctl] ++ toBe 1 (unsign 8 log) ++ body
  if val s i 3 = 0 then
    (match peer with | some x => toBe 6 x.mac.toNat | none => [0x01, 0x1B, 0x19, 0, 0, 0]) ++ mac ++ toBe 2 0x88F7 ++ msg
  else
    let port : Nat := if type ≤ 1 then 319 else 320
    let dest : Bytes × Bytes := match peer with
      | some x => (toBe 6 x.mac.toNat, toBe 4 x.ip.toNat)
      | none => ([0x01, 0x00, 0x5E, 0, 1, 129], [224, 0, 1, 129])
    let head (sum : Nat) := [0x45, 0] ++ toBe 2 (28 + msg.length) ++ [0, 0, 0, 0, 1, 17] ++ toBe 2 sum
      ++ toBe 4 (val s i 0x0D) ++ dest.2
    dest.1 ++ mac ++ toBe 2 0x0800 ++ head (ipChecksum (head 0)) ++ toBe 2 port ++ toBe 2 port
      ++ toBe 2 (8 + msg.length) ++ [0, 0] ++ msg

/-- Sends a message of the instance through the firmware transmit queue of a port (R113, R159–R161). -/
def ptpSend (s : State) (n p type : Nat) (time correction : Int) (sequence : BitVec 16) (peer : Option PtpPeer) (tail : Bytes) :
    State :=
  let b := baseAt s n
  let f : TxFrame :=
    { src := 0x40 + p, tc := BitVec.ofNat 3 (val s (0x2210 + n) 0x0E),
      tsReq := type = 1 || (type = 0 && val s (0x2210 + n) 4 = 2),
      oneStep := type = 0 && val s (0x2210 + n) 4 = 1, refN := b.n,
      data := ptpFrame s n p type time correction sequence peer tail, descs := [] }
  fwSend s p f

/-- A message of the instance's own: it takes the next sequence number. A Delay_Req goes to the master as the master's messages
come, and waits for its answer. -/
def ptpTimed (s : State) (n p : Nat) (timer : PtpTimer) : State :=
  let x := ptpAt s n
  let peer := if timer = .delayReq then x.parent.bind (·.peer) else none
  let s := ptpSend s n p (ptpType timer) ((baseE (baseAt s n) * 65536 : Nat) : Int) 0 x.seq peer []
  setPtp s n { x with seq := x.seq + 1, delayReq := if timer = .delayReq then some x.seq else x.delayReq }

/-! #### Best master clock (R143, R158) -/

/-- A data set as the comparison of clause 9.3 orders different grandmasters: the lower is better. -/
def ptpRank (d : PtpData) : Nat :=
  ((((d.priority1.toNat * 2 ^ 8 + d.clockClass.toNat) * 2 ^ 8 + d.accuracy.toNat) * 2 ^ 16 + d.variance.toNat) * 2 ^ 8
    + d.priority2.toNat) * 2 ^ 64 + d.grandmaster.toNat

/-- A data set among those of one grandmaster, received on a port: by steps removed, then by the identity of the sender, then of
the receiver. -/
def ptpNear (d : PtpData) (port : Nat) : Nat := (d.steps.toNat * 2 ^ 80 + d.sender.toNat) * 2 ^ 8 + port

/-- Whether data set `a` is better than `b` (PRESUMED from clause 9.3 of 1588-2019, which R158 names, notes/assumptions/15). -/
def ptpBetter (a : PtpData) (pa : Nat) (b : PtpData) (pb : Nat) : Bool :=
  if a.grandmaster = b.grandmaster then decide (ptpNear a pa < ptpNear b pb) else decide (ptpRank a < ptpRank b)

/-- The best qualified master that an instance hears, on all ports or on one. -/
def ptpBest (l : List Foreign) : Option Foreign :=
  l.foldl (fun b x =>
    if !x.qualified then b
    else match b with
      | none => some x
      | some y => if ptpBetter x.data x.port y.data y.port then some x else some y) none

/-- Whether a master is better than another of the same grandmaster by topology only (clause 9.3.4): the two differ by at most
one step, and the receiver of the farther is not nearer to the grandmaster than its sender. -/
def ptpTopology (own : Nat) (a b : PtpData) : Bool :=
  a.grandmaster = b.grandmaster && (a.steps = b.steps || (a.steps + 1 = b.steps && decide (b.sender.toNat / 2 ^ 16 < own)))

/-- The state that the best master clock algorithm gives a port (clauses 9.2 and 9.3): 4 LISTENING, 6 MASTER, 7 PASSIVE, 8
UNCALIBRATED, 9 SLAVE. -/
def ptpPortState (s : State) (n p : Nat) (best : Option Foreign) : Nat :=
  let own := ptpOwn s n
  let here := ptpBest ((ptpAt s n).foreign.filter fun x => x.port = p)
  let cur := ptpState s n p
  let follow (b : Foreign) : Nat :=
    if cur = 9 && (ptpAt s n).parent.any (fun x => x.data.sender = b.data.sender && x.port = p) then 9 else 8
  match best with
  | none => if cur = 1 then 4 else cur
  | some b =>
    if val s (0x2210 + n) 1 = 1 then (if b.port = p then follow b else 4)
    else if here.isNone && (cur = 1 || cur = 4) then 4
    else if own.clockClass.toNat < 128 then
      (if here.all fun x => ptpBetter own 0 x.data x.port then 6 else 7)
    else if ptpBetter own 0 b.data b.port then 6
    else if b.port = p then follow b
    else if here.any fun x => ptpTopology (ptpIdentity s n) b.data x.data then 7
    else 6

/-- The state decision of an instance: its port states, the master it follows, and the end of Holdover once it has one
(R143). -/
def ptpDecide (s : State) (n : Nat) : State :=
  let best := ptpBest (ptpAt s n).foreign
  let states := (allPorts.filter fun p => bit (val s (0x2210 + n) 2) p).map fun p => (p, ptpPortState s n p best)
  let parent := best.filter fun b => states.any fun x => x.1 = b.port && 8 ≤ x.2
  let s := states.foldl (fun s x => setPtpState s n x.1 x.2) s
  let s := setPtp s n { ptpAt s n with parent := parent }
  match parent with
  | some b => put (put s (0x2200 + n) 0x0D 0) (0x2210 + n) 0x13 (b.data.sender.toNat / 2 ^ 16)
  | none => s

/-- The announce interval of an instance. -/
def announceInterval (s : State) (n : Nat) : Time := ns (125000000 * 2 ^ (ival 4 s (0x2210 + n) 0x0B + 3).toNat)

/-- An Announce is noted: its sender is qualified by the second within four announce intervals (clause 9.3.2.5). -/
def noteAnnounce (s : State) (n p : Nat) (d : PtpData) (peer : Option PtpPeer) : State :=
  let x := ptpAt s n
  let same (y : Foreign) : Bool := y.port = p && y.data.sender = d.sender
  let again := x.foreign.any fun y => same y && decide (elapsed s - y.last ≤ 4 * announceInterval s n)
  setPtp s n { x with foreign := x.foreign.filter (fun y => !same y)
    ++ [{ port := p, data := d, peer := peer, last := elapsed s, qualified := again }] }

/-- Whether a message comes from the master that an instance follows on a port. -/
def fromParent (s : State) (n p : Nat) (sender : BitVec 80) : Bool :=
  (ptpAt s n).parent.any fun x => x.port = p && x.data.sender = sender

/-- PTP_MESSAGE_RX (R141, R143, R158): what the instance of base `n` does with a message of its domain. An exchange begun before a
step of the base is discarded. -/
def execPtpMessageRx (n : BitVec 2) (message : PtpMsg) (s : State) : Host.Outcome State Fault Refusal :=
  let n := n.toNat
  .next (
    match message with
    | .announce p d peer => if ptpOn s n p.toNat then ptpDecide (noteAnnounce s n p.toNat d peer) n else s
    | .sync p sender origin correction ingress step =>
      if ptpOn s n p.toNat && fromParent s n p.toNat sender && 8 ≤ ptpState s n p.toNat
          && step.toNat = val s (0x2200 + n) 0x0B then
        ptpSync s n p.toNat origin correction ingress
      else s
    | .delayResp p sender received correction egress sequence =>
      let x := ptpAt s n
      if ptpOn s n p.toNat && fromParent s n p.toNat sender && x.lastSync ≠ none && x.delayReq = some sequence then
        let d := (x.t21 + (received - egress - correction)) / 2
        setPtp (put s (0x2210 + n) 0x12 (unsign 64 d)) n { x with meanDelay := d, delayReq := none }
      else s
    | .delayReq p ingress correction requester sequence peer =>
      if ptpOn s n p.toNat && ptpState s n p.toNat = 6 then
        ptpSend s n p.toNat 9 ingress (correction - ingress % 65536) sequence peer (toBe 10 requester.toNat)
      else s
    | .management => s
    | .signaling => s)

/-- PTP_INTERVAL_TIMER (R158): a master port sends Sync and Announce, a slave port Delay_Req. -/
def execPtpIntervalTimer (n : BitVec 2) (port : BitVec 3) (timer : PtpTimer) (s : State) :
    Host.Outcome State Fault Refusal :=
  let n := n.toNat
  let p := port.toNat
  let st := ptpState s n p
  .next (
    if !ptpOn s n p then s
    else match timer with
      | .delayReq => if 8 ≤ st then ptpTimed s n p timer else s
      | _ => if st = 6 then ptpTimed s n p timer else s)

/-- The masters that an instance still hears after the announce receipt timeout of a port: none of that port which is the
instance's master or has been silent for as long. -/
def stillHeard (s : State) (n p : Nat) : List Foreign :=
  let x := ptpAt s n
  let span := (val s (0x2210 + n) 0x0C : Int) * announceInterval s n
  x.foreign.filter fun y =>
    y.port ≠ p || (!(x.parent.any fun z => z.port = p && z.data.sender = y.data.sender) && decide (elapsed s - y.last < span))

/-- ANNOUNCE_RECEIPT_TIMEOUT (R143): the instance drops the master that has fallen silent and decides again. With no other
master qualified a slave port's base free-runs in Holdover; a port that hears no master becomes one where the role allows it. -/
def execAnnounceReceiptTimeout (n : BitVec 2) (port : BitVec 3) (s : State) : Host.Outcome State Fault Refusal :=
  let n := n.toNat
  let p := port.toNat
  .next (
    if !ptpOn s n p then s
    else
      let slave := 8 ≤ ptpState s n p
      let s := ptpDecide (setPtp s n { ptpAt s n with foreign := stillHeard s n p }) n
      let silent := (ptpBest ((ptpAt s n).foreign.filter fun x => x.port = p)).isNone
      let s := if slave && (ptpBest (ptpAt s n).foreign).isNone then put s (0x2200 + n) 0x0D 1 else s
      if silent then setPtpState s n p (if val s (0x2210 + n) 1 = 1 then 4 else 6) else s)

/-- The firmware filter entries of an instance: Ethernet at index 0, UDP/IPv4 at index 1, both to Stoker ring 0x00
(R99, R159). -/
def ptpEntries : List (BitVec 256) :=
  let w0 := 2 ^ 31 + 3 * 2 ^ 29 + 2 ^ 27
  [filterOf [w0, 2 ^ 27, 0, 0x88F7, 0, 0, 0, 0],
   filterOf [w0, 2 ^ 24, 0, 0, 0, 0, 319 * 65536 + 320, 0]]

/-- Starts an instance: its entries are placed and its ports are in INITIALIZING (R159, R163). -/
def ptpStart (s : State) (n : Nat) : State :=
  let s := setPtp s n Ptp.reset
  allPorts.foldl (fun s p =>
    if bit (val s (0x2210 + n) 2) p then
      let s := setFilter (setFilter s p 0 (ptpEntries.getD 0 0)) p 1 (ptpEntries.getD 1 0)
      setPtpState s n p 1
    else s) (put s (0x2210 + n) 0x10 0)

/-- Stops an instance: its entries go, and ρ and the session state stand (R162). -/
def ptpStop (s : State) (n : Nat) : State :=
  let s := allPorts.foldl (fun s p =>
    if bit (val s (0x2210 + n) 2) p then setFilter (setFilter s p 0 0) p 1 0 else s) s
  setPtp (put s (0x2210 + n) 0x10 0) n Ptp.reset

/-- The rules of 0x2210+n:01 (R162, R165). -/
def writePtpRole (n : Nat) (data : Bytes) (s : State) : Ans :=
  let i := 0x2210 + n
  let role := leNat data
  let ports := (allPorts.filter fun p => bit (val s i 2) p).length
  if role ≠ 0 && val s i 1 ≠ 0 then .error abState
  else if (role = 1 || role = 2) && ports ≠ 1 then .error abState
  else if role = 0 then .ok (put (if val s i 1 = 0 then s else ptpStop s n) i 1 0)
  else .ok (ptpStart (put s i 1 role) n)

/-- PTP_ROLE_WRITE (R162). -/
def execPtpRoleWrite (q : Requester) (n : BitVec 2) (role : BitVec 8) (s : State) : Host.Outcome State Fault Refusal :=
  .next (request s q (0x2210 + n.toNat) 1 [role] (writePtpRole n.toNat [role]))

/-! ### Pulse outputs (R152, R153) -/

/-- The rules of 0x2220+k:02: arming, with the past start time case. -/
def writePulseMode (k : Nat) (data : Bytes) (s : State) : Ans :=
  let i := 0x2220 + k
  let mode := leNat data
  let start := val s i 3
  let now := baseEF (baseAt s (val s i 1 % 4))
  let x := pulseAt s k
  if mode = 2 && val s i 4 ≤ val s i 5 then .error abRange
  else
    let s := put s i 2 mode
    if mode = 0 then .ok (put (setPulse s k { x with next := none }) i 7 0)
    else if mode = 1 then
      if start * 2 ^ 16 < now then .ok (soot (put (setPulse s k { x with next := none }) i 7 3) 0x2205 none k 0)
      else .ok (put (setPulse s k { x with next := some start }) i 7 1)
    else .ok (put (setPulse s k { x with next := some (pulseNext start (val s i 4) now) }) i 7 1)

/-- PULSE_MODE_WRITE (R152). -/
def execPulseModeWrite (q : Requester) (k : BitVec 2) (mode : BitVec 8) (s : State) : Host.Outcome State Fault Refusal :=
  .next (request s q (0x2220 + k.toNat) 2 [mode] (writePulseMode k.toNat [mode]))

/-- PULSE_EDGE (R152): the base has reached the next start time, and the leading edge is made. -/
def execPulseEdge (k : BitVec 2) (s : State) : Host.Outcome State Fault Refusal :=
  let k := k.toNat
  let i := 0x2220 + k
  let x := pulseAt s k
  .next (
    match x.next with
    | none => s
    | some t =>
      if baseEF (baseAt s (val s i 1 % 4)) < t * 2 ^ 16 then s
      else
        let s := emit s (.pulse k (pulseLevel s k true))
        if val s i 2 = 2 then setPulse s k { next := some (t + val s i 4), high := true }
        else put (setPulse s k { next := none, high := true }) i 7 2)

/-- PULSE_WIDTH_END (R152). -/
def execPulseWidthEnd (k : BitVec 2) (s : State) : Host.Outcome State Fault Refusal :=
  let k := k.toNat
  let x := pulseAt s k
  .next (if x.high then setPulse (emit s (.pulse k (pulseLevel s k false))) k { x with high := false } else s)

/-! ### Capture inputs (R155–R157) -/

/-- Capture input `k`. -/
def captureAt (s : State) (k : Nat) : Capture := tabGet Capture.reset s.quartz.captures k

/-- Writes capture input `k`. -/
def setCapture (s : State) (k : Nat) (x : Capture) : State :=
  { s with quartz := { s.quartz with captures := tabSet Capture.reset s.quartz.captures k x } }

/-- CAPTURE_EDGE (R155, R156). -/
def execCaptureEdge (k : BitVec 2) (rising : Bool) (s : State) : Host.Outcome State Fault Refusal :=
  let k := k.toNat
  let i := 0x2230 + k
  let x := captureAt s k
  let b := baseAt s (val s i 1 % 4)
  let soon := match x.last with | none => false | some t => decide (elapsed s - t ≤ ns 20)
  .next (
    if !bit (val s i 2) (if rising then 0 else 1) then s
    else if soon || 16 ≤ x.fifo.length then bump32 s i 5
    else
      let entry : CapEntry :=
        { e := baseE b, f := b.f, step := BitVec.ofNat 8 (val s (0x2200 + val s i 1 % 4) 0x0B), rising := rising }
      setCapture s k { fifo := x.fifo ++ [entry], last := some (elapsed s) })

/-- The 16 bytes of a capture entry (R155). -/
def capBytes (x : CapEntry) : Bytes :=
  toLe 8 x.e ++ toLe 2 x.f.toNat ++ [x.step, if x.rising then 1 else 0, 0, 0, 0, 0]

/-- A read of Next stamp pops the oldest entry (R157). -/
def readNextStamp (k : Nat) (s : State) : Bytes × State :=
  let x := captureAt s k
  match x.fifo with
  | [] => (List.replicate 16 0, s)
  | e :: rest => (capBytes e, setCapture s k { x with fifo := rest })

/-- NEXT_STAMP (R157). -/
def execNextStamp (q : Requester) (k : BitVec 2) (s : State) : Host.Outcome State Fault Refusal :=
  .next (readRequest s q (0x2230 + k.toNat) 3 (readNextStamp k.toNat))

end Sys2Proof.Machine
end

