-- ==== Sys2Proof/Machine/FlueOps.lean ====
section
/-! DEFINITION. The Flue's links and packets (14): building, sending, acknowledging and replaying packets, the
outstanding requests, and the checks at the inbound edge. -/

namespace Sys2Proof.Machine

/-! ### Channels -/

/-- Writes channel `f`. -/
def setChan (s : State) (f : Nat) (x : Chan) : State :=
  { s with flue := { s.flue with chans := tabSet Chan.reset s.flue.chans f x } }

/-- The configuration of context `c` in a given state of the store (R383). -/
def configIn (s : State) (c : Nat) (st : HState) : Option (Nat × HConfig) :=
  s.grid.slots.findSome? fun x =>
    match x.2 with
    | some h => if h.owner = c && h.state = st then h.cfg.map fun g => (x.1, g) else none
    | none => none

/-- The configuration whose units fire for a context: the Draining one of a swap, else the Active one (R383, R387). -/
def firingConfig (s : State) (c : Nat) : Option (Nat × HConfig) :=
  match configIn s c .draining with
  | some x => some x
  | none => configIn s c .active

/-- The spread entries on a channel, each with its context (R397, R398). -/
def spreadsOn (s : State) (f : Nat) : List (Nat × Spread) :=
  (heldConfigs s).flatMap fun x => (x.2.spreads.filter fun e => siteChannel e.site = f).map fun e => (x.1, e)

/-- The context whose Hearth circuit holds a channel (R445). -/
def holderOf (s : State) (f : Nat) : Option Nat := (spreadsOn s f).head?.map (·.1)

/-- The channel of list position `k` mod U_m (R445). -/
def mantelChannel (s : State) (k : Nat) : Option Nat :=
  let l := mantelList s
  l[k % l.length]?

/-- The domain of a channel's half (R435). -/
def chanDomain (f : Nat) : Nat := if f < 128 then 33 else 34

/-! ### Packets (R439, R440) -/

/-- A packet as its fields. -/
structure Pkt where
  type : Nat
  ctxv : Bool
  status : Nat
  dx : Nat
  dy : Nat
  sx : Nat
  sy : Nat
  tag : BitVec 14
  rid : BitVec 16
  arg : BitVec 64
  payload : Bytes
  deriving DecidableEq, Repr

/-- The virtual channel of a type (R438, R440). -/
def vcOf (type : Nat) : Nat := if 0x81 ≤ type && type ≤ 0x85 then 1 else if type = 0x30 then 2 else 0

/-- Flit buffer of a virtual channel (R438). -/
def vcSize (vc : Nat) : Nat := match vc with | 0 => 128 | 1 => 96 | _ => 16

/-- Flits of a packet: two of header and the padded payload (R439). -/
def pktFlits (bs : Bytes) : Nat := cdiv bs.length 16

/-- The bytes of a packet, SEQ and CRC open (R439). -/
def pktBytes (p : Pkt) : Bytes :=
  [BitVec.ofNat 8 p.type, BitVec.ofNat 8 ((if p.ctxv then 1 else 0) + 2 * p.status)]
    ++ toLe 2 p.dx ++ toLe 2 p.dy ++ toLe 2 p.sx ++ toLe 2 p.sy ++ [0, 0] ++ toLe 2 p.tag.toNat
    ++ toLe 2 p.payload.length ++ [0, 0] ++ toLe 2 p.rid.toNat ++ toLe 8 p.arg.toNat ++ [0, 0, 0, 0] ++ padTo 16 p.payload

/-- The packet with its SEQ and RID, and its CRC over bytes 0–27 and the padded payload (R439). -/
def pktSeal (bs : Bytes) (seq rid : BitVec 16) : Bytes :=
  let bs := patch bs 16 (toLe 2 seq.toNat ++ toLe 2 rid.toNat)
  patch bs 28 (toLe 4 (crc32c (bs.take 28 ++ bs.drop 32)))

/-- Whether a received packet's CRC is good and its length the one its LEN gives. -/
def pktGood (bs : Bytes) : Bool :=
  bs.length = 32 + 16 * cdiv (leAt bs 14 2) 16 && leAt bs 14 2 ≤ 1024
    && leAt bs 28 4 = crc32c (bs.take 28 ++ bs.drop 32)

/-- SEQ of a packet. -/
def pktSeq (bs : Bytes) : BitVec 16 := BitVec.ofNat 16 (leAt bs 16 2)

/-- The fields of a received packet. -/
def pktOf (bs : Bytes) : Pkt :=
  { type := (byteAt bs 0).toNat, ctxv := bit (byteAt bs 1).toNat 0, status := bits (byteAt bs 1).toNat 3 1,
    dx := leAt bs 2 2, dy := leAt bs 4 2, sx := leAt bs 6 2, sy := leAt bs 8 2, tag := BitVec.ofNat 14 (leAt bs 12 2),
    rid := BitVec.ofNat 16 (leAt bs 18 2), arg := BitVec.ofNat 64 (leAt bs 20 8),
    payload := slice bs 32 (leAt bs 14 2) }

/-- Whether the reserved fields of a packet are zero, the TAG of a packet with CTXV clear among them (R439, R451). -/
def pktReservedOk (bs : Bytes) : Bool :=
  bits (byteAt bs 1).toNat 7 4 = 0 && zeroAt bs 10 2 && bits (leAt bs 12 2) 15 14 = 0
    && (bit (byteAt bs 1).toNat 0 || zeroAt bs 12 2)

/-! ### Sending (R438, R441, R442, R446) -/

/-- The lowest outstanding-request entry that is free, of 1,024 (R452). -/
def freeEntry (t : Tab (Option Req)) (i : Nat) : Option Nat :=
  match t with
  | [] => if i < 1024 then some i else none
  | (k, _) :: t => if i < k then some i else freeEntry t (k + 1)

/-- The RID of an entry at its present reuse count (R439). -/
def ridOf (x : Chan) (e : Nat) : BitVec 16 := BitVec.ofNat 16 (e + 1024 * (tabGet 0 x.reuse e % 64))

/-- Credits left on a virtual channel (R437, R438). -/
def creditsLeft (x : Chan) (vc : Nat) : Nat := vcSize vc - ((x.flits.getD vc 0) - (x.credIn.getD vc 0)).toNat

/-- Whether a packet may start: its virtual channel holds credits for all of its flits. -/
def mayStart (x : Chan) (bs : Bytes) : Bool :=
  decide (pktFlits bs ≤ creditsLeft x (vcOf (byteAt bs 0).toNat))

/-- Whether a waiting packet may be sent: credits, and an entry where it is a request. -/
def maySend (x : Chan) (w : WaitPkt) : Bool :=
  mayStart x w.bytes && (w.req.isNone || (freeEntry x.outstanding 0).isSome)

/-- Takes a packet's credits. -/
def spend (x : Chan) (bs : Bytes) : Chan :=
  let vc := vcOf (byteAt bs 0).toNat
  { x with flits := x.flits.set vc (x.flits.getD vc 0 + BitVec.ofNat 16 (pktFlits bs)) }

/-! ### The order of traffic (R315, R316, R445, R446) -/

/-- First and last 64-byte line at its node that a request reads or writes. -/
def reqLines (q : Req) : Nat × Nat :=
  let o := q.arg.toNat % 2 ^ 32
  (o / 64, (o + q.len - 1) / 64)

/-- Whether two requests name one line (R316). -/
def sameLine (a b : Req) : Bool :=
  a.dx = b.dx && a.dy = b.dy && a.len ≠ 0 && b.len ≠ 0 && decide ((reqLines a).1 ≤ (reqLines b).2)
    && decide ((reqLines b).1 ≤ (reqLines a).2)

/-- The ring whose traffic a packet is (R445). -/
def ringOfPkt (w : WaitPkt) : Option Nat :=
  match w.req with
  | some q => (match q.purpose with | .ring r => some r | _ => none)
  | none => if byteAt w.bytes 0 = 0x10 then some (byteAt w.bytes 20).toNat else none

/-- Whether two packets keep their order: they name one line, or belong to one ring (R316, R445). -/
def ordered (a b : WaitPkt) : Bool :=
  (match a.req, b.req with | some q, some r => sameLine q r | _, _ => false)
    || (match ringOfPkt a, ringOfPkt b with | some i, some j => i = j | _, _ => false)

/-- A request that has been sent, as a packet that others may have to follow. -/
def sentPkt (q : Req) : WaitPkt := { bytes := [], req := some q }

/-- The kind of a packet in the order of R446: 0 BEACON; 1 Opal lane requests; then those in round robin: 2 the migration
engine; 3 Stoker reads; 4 slow-path and bulk traffic; 5 responses and HCRED. Chimney resend writes go to local space alone. -/
def trafficKind (w : WaitPkt) : Nat :=
  let type := (byteAt w.bytes 0).toNat
  if type = 0x30 then 0
  else if type = 0x21 || 0x81 ≤ type then 5
  else match w.req with
    | none => 4
    | some q =>
      match q.purpose with
      | .mantelRow _ _ _ | .mantelHeader _ _ | .mantelRead _ _ _ | .rolloutRead _ _ _ _ => 1
      | .migrate _ _ _ => 2
      | .probeTo _ _ _ => 3
      | .ring _ | .staging => 4

/-- The first waiting packet of a kind that may be sent and has nothing before it that it must follow. -/
def firstOf (x : Chan) (kind : Nat) : Option WaitPkt :=
  (x.waiting.zipIdx.find? fun w =>
    trafficKind w.1 = kind && maySend x w.1 && (x.waiting.take w.2).all fun u => !ordered u w.1).map (·.1)

/-- The packet to send next (R315, R446): a BEACON, then the requests of Opal lanes, then the kinds that share the rest, from
the one after that last served. -/
def nextPkt (x : Chan) : Option WaitPkt :=
  ([0, 1] ++ (List.range 4).map fun k => 2 + (x.turn + k + 3) % 4).findSome? (firstOf x)

/-- Sends what the link may send: the packets of a replay, which had been started, first, since no later SEQ is taken before them
(R441, R442); then waiting packets while the replay buffer of 128 has room. -/
def pumpN (n : Nat) (s : State) (f : Nat) : State :=
  match n with
  | 0 => s
  | n + 1 =>
    let x := chanAt s f
    if x.state ≠ .up then s
    else match x.again with
      | q :: rest =>
        match x.unacked.find? fun u => u.1 = q with
        | none => pumpN n (setChan s f { x with again := rest }) f
        | some u =>
          if mayStart x u.2.2 then
            pumpN n (emit (setChan s f (spend { x with again := rest } u.2.2)) (.packet f u.2.2)) f
          else s
      | [] =>
        if 128 ≤ x.unacked.length then s
        else match nextPkt x with
          | none => s
          | some w =>
            let e := (freeEntry x.outstanding 0).getD 0
            let bs := pktSeal w.bytes x.txSeq (if w.req.isSome then ridOf x e else BitVec.ofNat 16 (leAt w.bytes 18 2))
            let y := spend { x with
              waiting := x.waiting.erase w, turn := if trafficKind w < 2 then x.turn else trafficKind w, txSeq := x.txSeq + 1, sent := x.sent + 1,
              unacked := x.unacked ++ [(x.txSeq, 0, bs)],
              outstanding := if w.req.isSome then tabSet none x.outstanding e (w.req.map fun q => { q with sentAt := elapsed s })
                else x.outstanding } bs
            pumpN n (emit (setChan s f y) (.packet f bs)) f

/-- Sends on channel `f` what may be sent. -/
def pump (s : State) (f : Nat) : State :=
  let x := chanAt s f
  pumpN (x.waiting.length + x.again.length) s f

/-- Gives a packet to channel `f`; SX and SY are the channel's node. -/
def sendBytes (s : State) (f : Nat) (w : WaitPkt) : State :=
  let x := chanAt s f
  let w := { w with bytes := patch w.bytes 6 (toLe 2 x.x.toNat ++ toLe 2 x.y.toNat) }
  pump (setChan s f { x with waiting := x.waiting ++ [w] }) f

/-- Gives a packet to channel `f`, with the outstanding-request entry it needs. -/
def sendPkt (s : State) (f : Nat) (p : Pkt) (req : Option Req) : State :=
  sendBytes s f { bytes := pktBytes p, req := req }

/-- A posted packet or response with a context tag, or none. -/
def pkt (type dx dy : Nat) (tag : Option (BitVec 14)) (arg : Nat) (payload : Bytes) : Pkt :=
  { type := type, ctxv := tag.isSome, status := 0, dx := dx, dy := dy, sx := 0, sy := 0, tag := tag.getD 0, rid := 0,
    arg := BitVec.ofNat 64 arg, payload := payload }

/-- The outstanding-request entry of a request (R452): an RD names the bytes of its RLEN, a WR those of its payload. -/
def reqOf (s : State) (p : Pkt) (why : Purpose) : Req :=
  { type := BitVec.ofNat 8 p.type, tag := if p.ctxv then some p.tag else none, arg := p.arg, purpose := why, dx := p.dx, dy := p.dy,
    len := if p.type = 1 then bits p.arg.toNat 47 32 else p.payload.length, sentAt := elapsed s }

/-- A request with its outstanding entry (R452). -/
def sendReq (s : State) (f : Nat) (p : Pkt) (why : Purpose) : State := sendPkt s f p (some (reqOf s p why))

/-- Whether a packet for channel `f` has to wait for others that it must follow: they are on another channel, or held back
themselves (R316). -/
def mustHold (s : State) (f : Nat) (w : WaitPkt) : Bool :=
  s.flue.held.any (fun h => ordered h.pkt w)
    || s.flue.chans.any fun x => x.1 ≠ f
      && (x.2.outstanding.any (fun r => match r.2 with | some q => ordered (sentPkt q) w | none => false)
        || x.2.waiting.any fun u => ordered u w)

/-- Gives a packet to the channel of list position `k`, or holds it back while earlier traffic to its line or of its ring is on
another channel (R316, R445), or while the list is empty. -/
def sendAt (s : State) (k : Nat) (w : WaitPkt) : State :=
  let hold := { s with flue := { s.flue with held := s.flue.held ++ [{ pos := k, pkt := w }] } }
  match mantelChannel s k with
  | none => hold
  | some f => if mustHold s f w then hold else sendBytes s f w

/-- What the hold of R316 keeps back is given to its channel again, in order: what need not wait any longer is sent, and a request
whose generation has become stale is discarded (R16, R314). -/
def releaseHeld (s : State) : State :=
  if s.flue.held.isEmpty then s
  else s.flue.held.foldl (fun s h =>
    match h.pkt.req.bind (·.tag) with
    | some t => if tagCurrent s t then sendAt s h.pos h.pkt else staleDrop s t
    | none => sendAt s h.pos h.pkt) { s with flue := { s.flue with held := [] } }

/-- A link control flit (R437). -/
def ctrlFlit (x : Chan) (ctype : Byte) : Bytes :=
  let h := [ctype, 0] ++ toLe 2 (x.rxSeq - 1).toNat ++ x.freed.flatMap (fun c => toLe 2 c.toNat) ++ [0, 0]
  h ++ toLe 4 (crc32c h)

/-- Removes acknowledged packets: all up to ACKSEQ in link order (R437, R441). -/
def ackTo (x : Chan) (ack : BitVec 16) : Chan :=
  match x.unacked.head? with
  | none => x
  | some u =>
    let n := (ack - u.1).toNat + 1
    if n ≤ x.unacked.length then
      { x with unacked := x.unacked.drop n,
               again := x.again.filter fun q => (x.unacked.drop n).any fun u => u.1 = q }
    else x

/-- Replays from ACKSEQ + 1 in SEQ order; a packet replayed 8 times without acknowledgement sends the channel to
Training with its replay buffer kept (R442). -/
def replay (s : State) (f : Nat) : State :=
  let x := chanAt s f
  if x.unacked.isEmpty then s
  else if x.unacked.any fun u => 8 ≤ u.2.1 then setChan s f { x with state := .training, again := [] }
  else
    let s := bump s 0x2A00 6
    pump (setChan s f { x with
      replays := x.replays + 1, unacked := x.unacked.map fun u => (u.1, u.2.1 + 1, u.2.2),
      again := x.unacked.map (·.1) }) f

/-- The lifetime of an outstanding request (R17). -/
def requestLifetime : Time := ns 100000

/-- Abandons an outstanding entry: its reuse count advances (R452). -/
def abandon (s : State) (f e : Nat) : State :=
  let x := chanAt s f
  setChan s f { x with outstanding := tabSet none x.outstanding e none,
                       reuse := tabSet 0 x.reuse e ((tabGet 0 x.reuse e + 1) % 64) }

/-- Frees an answered entry. -/
def freeReq (s : State) (f e : Nat) : State :=
  let x := chanAt s f
  setChan s f { x with outstanding := tabSet none x.outstanding e none }

/-- The outstanding entry that a response matches: its RID with the same reuse count, and its TAG (R452). -/
def matchReq (x : Chan) (p : Pkt) : Option (Nat × Req) :=
  let e := p.rid.toNat % 1024
  match tabGet none x.outstanding e with
  | none => none
  | some r => if ridOf x e = p.rid && r.tag = (if p.ctxv then some p.tag else none) then some (e, r) else none

/-- The requests that a channel has accepted, sent or still waiting to be sent. -/
def chanReqs (x : Chan) : List Req := (x.outstanding.filterMap (·.2)) ++ x.waiting.filterMap (·.req)

/-- Every request that the block has to see answered: sent, waiting for its link, or held back. -/
def openReqs (s : State) : List Req := s.flue.chans.flatMap (fun x => chanReqs x.2) ++ s.flue.held.filterMap (·.pkt.req)

/-- The window address that a request of Mantel names. -/
def purposeAddr (p : Purpose) : Option Nat :=
  match p with
  | .mantelRow _ _ a | .mantelHeader _ a | .mantelRead _ _ a | .rolloutRead _ _ _ a | .migrate _ _ a => some a
  | .ring _ | .staging | .probeTo _ _ _ => none

/-- Whether any channel lists an outstanding request with tag `t` (R17). -/
def flueLists (s : State) (t : BitVec 14) : Bool :=
  s.flue.chans.any fun x => x.2.outstanding.any fun r =>
    match r.2 with | some q => q.tag = some t | none => false

/-- What follows a change of the channels or of their holders: EMCY 0x8100 when the Flue goes down, and its clearing when it is
back (R525), and the traffic held back is given to its channels (R316). -/
def noteFlue (before s : State) : State :=
  let s := releaseHeld s
  if !flueDown before && flueDown s then emcy s 0x8100 []
  else if flueDown before && !flueDown s && s.mgmt.conditions.contains 0x8100 then emcy s 0 (toLe 2 0x8100)
  else s

/-- Marks a destination unreachable (R454). -/
def markUnreachable (s : State) (d : BitVec 16 × BitVec 16) : State :=
  if s.flue.unreachable.contains d then s
  else { s with flue := { s.flue with unreachable := s.flue.unreachable ++ [d] } }

/-- A mesh destination can be reached: the Flue is up and the node is not marked (R26, R454). -/
def reachable (s : State) (x y : Nat) : Bool :=
  !flueDown s && !s.flue.unreachable.contains (BitVec.ofNat 16 x, BitVec.ofNat 16 y)

/-- A wafer address (R444). -/
def waferX (a : Nat) : Nat := bits a 47 32
def waferY (a : Nat) : Nat := bits a 63 48

/-- A beacon to the far end of every spread entry of the context's Active configuration, one to each distinct far end
(R455). -/
def sendBeacons (s : State) (c cause : Nat) : State :=
  let g := val s 0x2A20 (c + 1)
  if g = 0 then s
  else match configIn s c .active with
    | none => s
    | some (_, cfg) =>
      let ends := cfg.spreads.map fun e => (e.x, e.y, siteChannel e.site)
      let ends := ends.foldl (fun (a : List (Nat × Nat × Nat)) e =>
        if a.any fun b => b.1 = e.1 && b.2.1 = e.2.1 then a else a ++ [e]) []
      ends.foldl (fun s e =>
        let s := sendPkt s e.2.2 (pkt 0x30 e.1 e.2.1 none (g + 65536 * cause) []) none
        let s := bump32 s 0x2A00 8
        sootCtx s c 0x2C05 g cause) s

end Sys2Proof.Machine
end

