-- ==== Sys2Proof/Machine/Numbers.lean ====
section
/-! DEFINITION. Number formats and arithmetic (06): every value is held exactly as a mantissa and an exponent, and each
operation rounds once where the spec rounds. -/

namespace Sys2Proof.Machine

/-- A decoded value: NaN, an infinity, or ± m · 2^e. -/
inductive FVal where
  | nan
  | inf (neg : Bool)
  | fin (neg : Bool) (m : Nat) (e : Int)
  deriving DecidableEq, Repr

/-! ### Flags (R212) -/

def fNV : Byte := 1
def fOF : Byte := 2
def fUF : Byte := 4
def fSAT : Byte := 8
def fFZ : Byte := 16

/-! ### Rounding -/

/-- 2 to an exponent that is not negative; 1 otherwise. -/
def pow2 (k : Int) : Nat := 2 ^ k.toNat

/-- m · 2^e in units of 2^q, rounded to nearest with ties to even, and whether anything was lost. -/
def roundEven (m : Nat) (e q : Int) : Nat × Bool :=
  if q ≤ e then (m * pow2 (e - q), false)
  else
    let d := pow2 (q - e)
    let n := m / d
    let r := m % d
    (if d < 2 * r || (2 * r = d && n % 2 = 1) then n + 1 else n, r ≠ 0)

/-- The same, rounded to odd (R207): toward zero, with the last bit set when inexact. -/
def roundOdd (m : Nat) (e q : Int) : Nat × Bool :=
  if q ≤ e then (m * pow2 (e - q), false)
  else
    let d := pow2 (q - e)
    let n := m / d
    (if m % d ≠ 0 && n % 2 = 0 then n + 1 else n, m % d ≠ 0)

/-- ⌊log2 of m · 2^e⌋, m > 0. -/
def magnitude (m : Nat) (e : Int) : Int := (Nat.log2 m : Nat) + e

/-- Whether a value is tiny after rounding to `p` bits with an unbounded exponent: below 2^emin (R198). -/
def tiny (p : Nat) (emin : Int) (m : Nat) (e : Int) : Bool :=
  let n := (roundEven m e (magnitude m e - (p - 1 : Nat))).1
  decide (magnitude n (magnitude m e - (p - 1 : Nat)) < emin)

/-- Packs a finite value into an IEEE format of `mb` fraction bits and the given bias by a rounding function: the bits
without sign, and the flags. -/
def packWith (round : Nat → Int → Int → Nat × Bool) (mb bias : Nat) (toInf : Bool) (m : Nat) (e : Int) : Nat × Byte :=
  if m = 0 then (0, 0)
  else
    let qmin : Int := 1 - (bias : Int) - (mb : Int)
    let q0 := magnitude m e - (mb : Int)
    let q := if q0 < qmin then qmin else q0
    let r := round m e q
    let n := if r.1 = 2 ^ (mb + 1) then 2 ^ mb else r.1
    let q := if r.1 = 2 ^ (mb + 1) then q + 1 else q
    let top : Nat := (2 * bias + 1) * 2 ^ mb
    let code : Nat := if n < 2 ^ mb then n else ((q - qmin + 1).toNat) * 2 ^ mb + (n - 2 ^ mb)
    if top ≤ code then (if toInf then (top, fOF) else (top - 1, 0))
    else (code, if tiny (mb + 1) (1 - (bias : Int)) m e && r.2 then fUF else 0)

/-! ### binary32 and binary16 (R197–R199) -/

def nan32 : BitVec 32 := 0x7FC00000
def nan16 : BitVec 16 := 0x7E00

/-- Decodes an IEEE encoding of `mb` fraction bits and `eb` exponent bits. -/
def decodeIeee (mb eb v : Nat) : FVal :=
  let neg := bit v (mb + eb)
  let f := v % 2 ^ mb
  let x := v / 2 ^ mb % 2 ^ eb
  let bias : Int := (2 ^ (eb - 1) - 1 : Nat)
  if x = 2 ^ eb - 1 then (if f = 0 then .inf neg else .nan)
  else if x = 0 then .fin neg f (1 - bias - (mb : Int))
  else .fin neg (2 ^ mb + f) ((x : Int) - bias - (mb : Int))

def dec32 (x : BitVec 32) : FVal := decodeIeee 23 8 x.toNat
def dec16 (x : BitVec 16) : FVal := decodeIeee 10 5 x.toNat

/-- Rounds a value to binary32 with roundTiesToEven; a NaN gives the canonical NaN and `nanFlag`. -/
def enc32 (nanFlag : Byte) (v : FVal) : BitVec 32 × Byte :=
  match v with
  | .nan => (nan32, nanFlag)
  | .inf neg => (if neg then 0xFF800000 else 0x7F800000, 0)
  | .fin neg m e =>
    let r := packWith roundEven 23 127 true m e
    (BitVec.ofNat 32 ((if neg then 2 ^ 31 else 0) + r.1), r.2)

/-- Rounds a value to binary16 with roundTiesToEven. -/
def enc16 (nanFlag : Byte) (v : FVal) : BitVec 16 × Byte :=
  match v with
  | .nan => (nan16, nanFlag)
  | .inf neg => (if neg then 0xFC00 else 0x7C00, 0)
  | .fin neg m e =>
    let r := packWith roundEven 10 15 true m e
    (BitVec.ofNat 16 ((if neg then 2 ^ 15 else 0) + r.1), r.2)

/-- Rounds a value to binary32 with round to odd (R211). -/
def enc32Odd (v : FVal) : BitVec 32 × Byte :=
  match v with
  | .fin neg m e =>
    let r := packWith roundOdd 23 127 false m e
    (BitVec.ofNat 32 ((if neg then 2 ^ 31 else 0) + r.1), r.2)
  | _ => enc32 fNV v

/-- binary16 widened to binary32 (R209): exact, and NV for a NaN. -/
def widen (x : BitVec 16) : BitVec 32 × Byte := enc32 fNV (dec16 x)

/-- binary32 narrowed to binary16 (R209). -/
def narrow (x : BitVec 32) : BitVec 16 × Byte := enc16 fNV (dec32 x)

/-! ### Exact products and sums -/

/-- The exact product, or its special case (R215). -/
def mulVal (a b : FVal) : FVal × Byte :=
  match a, b with
  | .nan, _ => (.nan, fNV)
  | _, .nan => (.nan, fNV)
  | .inf s, .inf t => (.inf (xor s t), 0)
  | .inf s, .fin t m _ => if m = 0 then (.nan, fNV) else (.inf (xor s t), 0)
  | .fin t m _, .inf s => if m = 0 then (.nan, fNV) else (.inf (xor s t), 0)
  | .fin s m e, .fin t n f => (.fin (xor s t) (m * n) (e + f), 0)

/-- A finite value as an integer in units of 2^q, where q is at most its exponent. -/
def inUnits (neg : Bool) (m : Nat) (e q : Int) : Int :=
  let v : Int := (m * pow2 (e - q) : Nat)
  if neg then -v else v

/-- The exact sum, or its special case (R216). -/
def addVal (a b : FVal) : FVal × Byte :=
  match a, b with
  | .nan, _ => (.nan, fNV)
  | _, .nan => (.nan, fNV)
  | .inf s, .inf t => if s = t then (.inf s, 0) else (.nan, fNV)
  | .inf s, .fin _ _ _ => (.inf s, 0)
  | .fin _ _ _, .inf s => (.inf s, 0)
  | .fin s m e, .fin t n f =>
    let q := if e ≤ f then e else f
    let v := inUnits s m e q + inUnits t n f q
    (.fin (if v = 0 then s && t && m = 0 && n = 0 else decide (v < 0)) v.natAbs q, 0)

/-- A product rounded once to binary32 (R215). -/
def mul32 (a b : FVal) : BitVec 32 × Byte :=
  let p := mulVal a b
  let r := enc32 0 p.1
  (r.1, p.2 ||| r.2)

/-- A sum of two binary32 values (R216). -/
def add32 (a b : BitVec 32) : BitVec 32 × Byte :=
  let p := addVal (dec32 a) (dec32 b)
  let r := enc32 0 p.1
  (r.1, p.2 ||| r.2)

/-- The sign of a binary32 inverted; no flag. -/
def neg32 (a : BitVec 32) : BitVec 32 := a ^^^ 0x80000000

/-- One level of the pairwise order: neighbours added, an unpaired last term carried (R217). -/
def pairLevel (l : List (BitVec 32 × Byte)) : List (BitVec 32 × Byte) :=
  match l with
  | a :: b :: rest =>
    let r := add32 a.1 b.1
    (r.1, a.2 ||| b.2 ||| r.2) :: pairLevel rest
  | rest => rest

/-- `n` levels of the pairwise order. -/
def pairLevels (n : Nat) (l : List (BitVec 32 × Byte)) : List (BitVec 32 × Byte) :=
  match n with
  | 0 => l
  | n + 1 => pairLevels n (pairLevel l)

/-- The sum of terms in the pairwise order, with the OR of all flags; +0 for no term (R217–R219). -/
def pairwise (l : List (BitVec 32 × Byte)) : BitVec 32 × Byte :=
  match pairLevels (clog2 l.length) l with
  | [] => (0, 0)
  | x :: _ => x

/-- Terms without flags of their own. -/
def plainTerms (l : List (BitVec 32)) : List (BitVec 32 × Byte) := l.map fun x => (x, 0)

/-- A dot product of decoded operands (R215–R218). -/
def dotVal (a b : List FVal) : BitVec 32 × Byte := pairwise ((a.zip b).map fun x => mul32 x.1 x.2)

/-! ### Comparison (R214) -/

/-- Comparison of two values that are not NaN; −0 equals +0. -/
def cmpVal (a b : FVal) : Ordering :=
  match a, b with
  | .inf s, .inf t => if s = t then .eq else if s then .lt else .gt
  | .inf s, _ => if s then .lt else .gt
  | _, .inf t => if t then .gt else .lt
  | .fin s m e, .fin t n f =>
    let q := if e ≤ f then e else f
    compare (inUnits s m e q) (inUnits t n f q)
  | _, _ => .eq

/-- a < b; false with a NaN. -/
def ltVal (a b : FVal) : Bool := a != .nan && b != .nan && cmpVal a b == .lt

/-- a ≥ b; false with a NaN. -/
def geVal (a b : FVal) : Bool := a != .nan && b != .nan && cmpVal a b != .lt

/-- a = b; false with a NaN. -/
def eqVal (a b : FVal) : Bool := a != .nan && b != .nan && cmpVal a b == .eq

/-! ### Integers -/

/-- An integer as a value. -/
def intVal (v : Int) : FVal := .fin (decide (v < 0)) v.natAbs 0

/-- raw · 10^−shift, close enough that every rounding of it is that of the exact value: the quotient carries more than 64
bits and a sticky last bit. -/
def decimalVal (raw : Int) (shift : Nat) : FVal :=
  let n := raw.natAbs * 2 ^ 160
  let d := 10 ^ shift
  .fin (decide (raw < 0)) (2 * (n / d) + (if n % d = 0 then 0 else 1)) (-161)

/-- A value rounded to an integer with roundTiesToEven; none for NaN and infinities. -/
def toInt (v : FVal) : Option Int :=
  match v with
  | .fin neg m e =>
    let r : Int := ((roundEven m e 0).1 : Nat)
    some (if neg then -r else r)
  | _ => none

/-! ### Blocks (R200–R208) -/

/-- The short formats of R196. -/
inductive Short where
  | e8
  | e6
  | b8
  deriving DecidableEq, Repr

/-- The short format of a format code (R196). -/
def shortOf (code : Nat) : Option Short :=
  match code with
  | 2 => some .e8
  | 3 => some .e6
  | 4 => some .b8
  | _ => none

/-- Decodes an element code (R200, R201, R203). -/
def decElem (f : Short) (c : Nat) : FVal :=
  match f with
  | .e8 =>
    if c % 128 = 0x7F then .nan
    else if bits c 6 3 = 0 then .fin (bit c 7) (c % 8) (-9)
    else .fin (bit c 7) (8 + c % 8) ((bits c 6 3 : Int) - 10)
  | .e6 =>
    if bits c 4 2 = 0 then .fin (bit c 5) (c % 4) (-4)
    else .fin (bit c 5) (4 + c % 4) ((bits c 4 2 : Int) - 5)
  | .b8 => if c = 0x80 then .nan else intVal (signed 8 c)

/-- Decodes element code `c` under scale code `x` to a binary32, with OF beyond its range (R202, R205). -/
def decBlock (f : Short) (x c : Nat) : BitVec 32 × Byte :=
  if x = 0 then (0, 0)
  else if x = 0xFF then (nan32, 0)
  else match decElem f c with
    | .fin neg m e => enc32 0 (.fin neg m (e + (x : Int) - 127))
    | v => enc32 0 v

/-- Element byte count of a block (R204). -/
def blockBytes (f : Short) : Nat := match f with | .e6 => 24 | _ => 32

/-- Element `i` of the element bytes of a block (R204). -/
def elemAt (f : Short) (bs : Bytes) (i : Nat) : Nat :=
  match f with
  | .e6 => leNat bs / 2 ^ (6 * i) % 64
  | _ => (byteAt bs i).toNat

/-- The element bytes of 32 codes (R204). -/
def elemBytes (f : Short) (cs : List Nat) : Bytes :=
  match f with
  | .e6 => toLe 24 (cs.foldr (fun c n => c % 64 + 64 * n) 0)
  | _ => cs.map (BitVec.ofNat 8 ·)

/-- Element and significand parameters: largest exponent, largest value, fraction bits and bias (R206). -/
def shortEmax (f : Short) : Int := match f with | .e8 => 8 | .e6 => 4 | .b8 => 6
def shortMax (f : Short) : Nat := match f with | .e8 => 448 | .e6 => 28 | .b8 => 127
def shortMant (f : Short) : Nat := match f with | .e8 => 3 | .e6 => 2 | .b8 => 6

/-- encode_f (R207): the element code of a value, and its flags. -/
def encElem (f : Short) (v : FVal) : Nat × Byte :=
  match f with
  | .b8 =>
    match v with
    | .nan => (0x80, fNV)
    | .inf neg => (if neg then 0x81 else 0x7F, fSAT)
    | .fin neg m e =>
      let n := (roundEven m e 0).1
      if 127 < n then (if neg then 0x81 else 0x7F, fSAT)
      else (if neg then (256 - n) % 256 else n, if n = 0 && m ≠ 0 then fFZ else 0)
  | _ =>
    let mb := shortMant f
    let top : Nat := match f with | .e8 => 0x7E | _ => 0x1F
    let sign (neg : Bool) : Nat := if neg then (match f with | .e8 => 0x80 | _ => 0x20) else 0
    let qmin : Int := match f with | .e8 => -9 | _ => -4
    match v with
    | .nan => (match f with | .e8 => 0x7F | _ => 0, fNV)
    | .inf neg => (sign neg + top, fSAT)
    | .fin neg m e =>
      if m = 0 then (sign neg, 0)
      else
        let q0 := magnitude m e - (mb : Int)
        let q := if q0 < qmin then qmin else q0
        let n0 := (roundEven m e q).1
        let n := if n0 = 2 ^ (mb + 1) then 2 ^ mb else n0
        let q := if n0 = 2 ^ (mb + 1) then q + 1 else q
        let code : Nat := if n < 2 ^ mb then n else (q - qmin + 1).toNat * 2 ^ mb + (n - 2 ^ mb)
        if top < code then (sign neg + top, fSAT)
        else (sign neg + code, if code = 0 then fFZ else 0)

/-- A value times 2^k. -/
def scaleVal (v : FVal) (k : Int) : FVal := match v with | .fin neg m e => .fin neg m (e + k) | _ => v

/-- The largest magnitude among the finite values, as mantissa and exponent. -/
def largest (vs : List FVal) : FVal :=
  vs.foldl (fun a v => match v with
    | .fin _ m e => if cmpVal a (.fin false m e) == .lt then .fin false m e else a
    | _ => a) (.fin false 0 0)

/-- The scale exponent of a block (R206): of the amplitude, so that the largest finite input does not saturate. -/
def blockScale (f : Short) (vs : List FVal) : Int :=
  let s : Int :=
    match largest vs with
    | .fin _ m e =>
      if m = 0 then 0
      else
        let s := magnitude m e - shortEmax f
        let q := magnitude m (e - s) - (shortMant f : Int)
        let r := (roundEven m (e - s) q).1
        if cmpVal (.fin false (shortMax f) 0) (.fin false r q) == .lt then s + 1 else s
    | _ => 0
  if s < -126 then -126 else if 127 < s then 127 else s

/-- An encoded block: scale code, 32 element codes, flags and the elements that flushed (R206–R208). -/
structure Block where
  scale : Nat
  elems : List Nat
  flags : Byte
  flushed : Nat
  deriving DecidableEq, Repr

/-- Encodes up to 32 binary32 inputs, padded with +0 (R206). -/
def encBlock (f : Short) (xs : List (BitVec 32)) : Block :=
  let xs := xs ++ List.replicate (32 - xs.length) 0
  let vs := xs.map dec32
  if vs.all fun v => match v with | .fin _ m _ => m == 0 | _ => false then
    { scale := 0, elems := List.replicate 32 0, flags := 0, flushed := 0 }
  else
    let s := blockScale f vs
    let es := vs.map fun v => encElem f (scaleVal v (-s))
    { scale := (s + 127).toNat, elems := es.map (·.1), flags := es.foldl (fun a e => a ||| e.2) 0,
      flushed := (es.filter fun e => e.2 &&& fFZ != 0).length }

end Sys2Proof.Machine
end

