-- ==== Sys2Proof/Machine/Outcome.lean ====
section
/-! DEFINITION. What ends the work of a message or a reply: the outcomes of R428, counter increments as they are requested
(R465), and how a session is held (R425). -/

namespace Sys2Proof.Machine

/-! ### Messages -/

/-- Message `m`. -/
def msgAt (s : State) (m : Nat) : Option Msg := tabGet none s.work.msgs m

/-- Writes message `m`. -/
def setMsg (s : State) (m : Nat) (x : Msg) : State :=
  { s with work := { s.work with msgs := tabSet none s.work.msgs m (some x) } }

/-- Frame `f`. -/
def frameAt (s : State) (f : Nat) : Option Frame := tabGet none s.net.frames f

/-- Writes frame `f`. -/
def setFrame (s : State) (f : Nat) (x : Frame) : State :=
  { s with net := { s.net with frames := tabSet none s.net.frames f (some x) } }

/-- Whether a message has been admitted and has no delivery yet. -/
def openMsg (m : Msg) : Bool := m.fate = .admitted && !m.delivered

/-- An outcome of R428 is recorded for message `m`: it is delivered, and the Chimney has made progress (R481). -/
def deliver (s : State) (m : Nat) : State :=
  match msgAt s m with
  | none => s
  | some x =>
    if openMsg x then progress (setMsg s m { x with entered := true, delivered := true }) x.ctx 5 else s

/-- A no-send is recorded for an admitted message without a reply, and counts in an object (R428). -/
def noSend (s : State) (m i sub : Nat) : State :=
  match msgAt s m with
  | none => s
  | some x => if openMsg x then bump (deliver s m) i sub else s

/-! ### Counters -/

/-- Requests an increment of a counter for work with a tag (R466). -/
def requestInc (s : State) (counter : Nat) (amount : BitVec 64) (tag : BitVec 14) : State :=
  { s with ctr := { s.ctr with requests := s.ctr.requests ++ [{ counter := counter, amount := amount, tag := tag }] } }

/-- The value of a counter. -/
def counterAt (s : State) (k : Nat) : BitVec 64 := tabGet 0 s.ctr.values k

/-- Writes a counter. -/
def setCounter (s : State) (k : Nat) (v : BitVec 64) : State :=
  { s with ctr := { s.ctr with values := tabSet 0 s.ctr.values k v } }

/-- The counter range of a context (CB+0x0B:01–02): base and count. -/
def counterRange (s : State) (c : Nat) : Nat × Nat := (val s (cb c 0x0B) 1, val s (cb c 0x0B) 2)

/-- Whether context `c` owns counter `k`: it is not Free and `k` lies in its range (R463). -/
def ownsCounter (s : State) (c k : Nat) : Bool :=
  let r := counterRange s c
  ctxState s c != .free && r.1 ≤ k && k < r.1 + r.2

/-- The owner of a counter (0x2B00:03). -/
def counterOwner (s : State) (k : Nat) : Option Nat := allCtxs.find? fun c => ownsCounter s c k

/-! ### Replies -/

/-- Reply `r`. -/
def replyAt (s : State) (r : Nat) : Option Reply := tabGet none s.chim.replies r

/-- Writes reply `r`. -/
def setReply (s : State) (r : Nat) (x : Reply) : State :=
  { s with chim := { s.chim with replies := tabSet none s.chim.replies r (some x) } }

/-- Template `t` of a context. -/
def templateAt (s : State) (c t : Nat) : Option Template :=
  match (ctxAt s c).image with
  | none => none
  | some m => m.chim.templates[t]?

/-- Requests a reply's increment when its point is reached (R419). -/
def replyInc (s : State) (x : Reply) (point : Nat) : State :=
  match templateAt s x.ctx x.template with
  | none => s
  | some t =>
    if t.kinc ≠ 0xFFFF && t.kpoint = point then requestInc s t.kinc (BitVec.ofNat 64 t.kamt) x.tag else s

/-- Wait line of a context and port (R418). -/
def lineAt (s : State) (c p : Nat) : List Nat := tabGet [] s.chim.lines (8 * c + p)

/-- Writes a wait line. -/
def setLine (s : State) (c p : Nat) (l : List Nat) : State :=
  { s with chim := { s.chim with lines := tabSet [] s.chim.lines (8 * c + p) l } }

/-- The wait ticket of a template (R418): its KEXP until it has been set. -/
def ticketOf (s : State) (c t : Nat) : Nat :=
  let kexp := match templateAt s c t with | none => 0 | some x => x.kexp
  tabGet kexp (ctxAt s c).tickets t

/-- Writes a wait ticket. -/
def setTicket (s : State) (c t v : Nat) : State :=
  let kexp := match templateAt s c t with | none => 0 | some x => x.kexp
  setCtx s c { ctxAt s c with tickets := tabSet kexp (ctxAt s c).tickets t v }

/-- A Chimney sample of message `m` (R501): its template and its score elements as binary16. -/
def chimSample (s : State) (m kind template : Nat) : State :=
  match msgAt s m with
  | none => s
  | some x =>
    sampleNow s x.ctx 5 kind x.layout (x.instr.getD 0) template
      (((x.record.map (·.scores)).getD []).flatMap fun v => toLe 2 (narrow v).1.toNat)

/-- The reply at the head of a wait line is compared with its ticket, and parks where the comparison does not hold
(R418, R469). -/
def parkHead (s : State) (c p : Nat) : State :=
  match (lineAt s c p).head? with
  | none => s
  | some r =>
    match replyAt s r with
    | none => s
    | some x =>
      match templateAt s c x.template with
      | none => s
      | some t =>
        let parks := decide ((counterAt s t.kwait).toNat < ticketOf s c x.template)
        let s := if parks && !x.parked then chimSample s x.msg 5 x.template else s
        setReply s r { x with parked := parks }

/-- Takes a reply out of its wait line; one that comes to the head is compared (R418). -/
def leaveLine (s : State) (c p r : Nat) : State :=
  let l := lineAt s c p
  let s := setLine s c p (l.filter (· != r))
  if l.head? = some r then parkHead s c p else s

/-- Takes a reply out of its wait line and its port's queue. -/
def unqueue (s : State) (r : Nat) (x : Reply) : State :=
  let s := leaveLine s x.ctx x.port r
  let y := portAt s x.port
  setPort s x.port { y with queue := y.queue.filter (· != r) }

/-- Suppresses a reply before its first bit: a no-send decision is recorded, which increments under point 2 only (R419). -/
def suppress (s : State) (r : Nat) (x : Reply) : State :=
  let s := unqueue s r x
  let s := chimSample (setReply s r { x with state := .ended }) x.msg 3 x.template
  deliver (replyInc s x 2) x.msg

/-- Suppresses a reply and counts it in an object. -/
def suppressIn (s : State) (r : Nat) (x : Reply) (i sub : Nat) : State := bump (suppress s r x) i sub

/-- Writes STATUS of a reply's resend entry (R426). -/
def resendStatus (s : State) (x : Reply) (status : Nat) : State :=
  match x.resend with
  | none => s
  | some k =>
    let c := ctxAt s x.ctx
    match tabGet none c.resend k with
    | none => s
    | some e => setCtx s x.ctx { c with resend := tabSet none c.resend k (some { e with status := status }) }

/-- A TCP segment that is stomped or lost holds its session, whatever state it has come to be in (R425). -/
def holdSession (s : State) (x : Reply) : State :=
  match templateAt s x.ctx x.template with
  | none => s
  | some t =>
    let i := 0x2910 + t.session
    if t.l4 = 2 && t.sess then
      let s := if val s i 2 = 2 then s else bump32 (put s i 2 2) i 0x0C
      soot s 0x2903 (some x.tag) t.session x.seqno.toNat
    else s

end Sys2Proof.Machine
end

