-- ==== Sys2Proof/Machine/MantelOps.lean ====
section
/-! DEFINITION. Mantel's spaces (10): usable banks, regions, the placement directory, the sizes of Opal's caches, and the
allocation of local and remote space. -/

namespace Sys2Proof.Machine

/-! ### Banks (R308, R330, R334) -/

/-- The usable banks, in increasing number (0x2700:01). -/
def usableBanks (s : State) : List Nat := (List.range 6).filter fun b => bit (val s 0x2700 1) b

/-- U_b. -/
def ub (s : State) : Nat := (usableBanks s).length

/-- Local capacity in bytes (R308). -/
def localCapacity (s : State) : Nat := 33554432 * ub s

/-- The domain of a bank (R544). -/
def bankDomain (b : Nat) : Nat := 18 + b

/-! ### Regions (R311) -/

/-- A descriptor that has not been written: V clear, and so STATE invalid (DEDUCED, notes/assumptions/48). -/
def noRegion : BitVec 256 := 4

/-- Region descriptor `r`. -/
def regionAt (s : State) (r : Nat) : BitVec 256 := tabGet noRegion s.store.regions r

/-- Writes region descriptor `r`. -/
def setRegion (s : State) (r : Nat) (v : BitVec 256) : State :=
  { s with store := { s.store with regions := tabSet noRegion s.store.regions r v } }

def regionV (v : BitVec 256) : Bool := bit v.toNat 0
def regionState (v : BitVec 256) : Nat := bits v.toNat 2 1
def regionCtx (v : BitVec 256) : Nat := bits v.toNat 15 8
def regionHop (v : BitVec 256) : Nat := bits v.toNat 31 16
def regionX (v : BitVec 256) : Nat := bits v.toNat 47 32
def regionY (v : BitVec 256) : Nat := bits v.toNat 63 48
def regionNx (v : BitVec 256) : Nat := bits v.toNat 79 64
def regionNy (v : BitVec 256) : Nat := bits v.toNat 95 80
def regionPercore (v : BitVec 256) : Nat := bits v.toNat 127 96
def regionBase (v : BitVec 256) : Nat := bits v.toNat 191 128

/-- A descriptor as Mantel holds it once nothing fences it: its STATE is valid with V set, and invalid with V clear (R311). -/
def regionStored (v : BitVec 256) : BitVec 256 := (v &&& ~~~(6 : BitVec 256)) ||| (if regionV v then 0 else 4)

/-- Bytes that a region covers. -/
def regionSize (v : BitVec 256) : Nat := regionNx v * regionNy v * regionPercore v

/-- The regions that hold a descriptor with V set, by number. -/
def validRegions (s : State) : List (Nat × BitVec 256) := s.store.regions.filter fun x => regionV x.2

/-- The regions of a context, in increasing number. -/
def regionsOf (s : State) (c : Nat) : List (Nat × BitVec 256) := (validRegions s).filter fun x => regionCtx x.2 = c

/-- H of a context (R313). -/
def contextH (s : State) (c : Nat) : Nat := (regionsOf s c).foldl (fun m x => max m (regionHop x.2)) 0

/-- Node and byte offset within its core's part of a window address of a region (R311). -/
def regionNode (v : BitVec 256) (a : Nat) : Nat × Nat × Nat :=
  let o := a - regionBase v
  let k := o / 256
  let n := regionNx v * regionNy v
  let core := k % n
  (regionX v + core % regionNx v, regionY v + core / regionNx v, 256 * (k / n) + o % 256)

/-- The region that holds a window address. -/
def regionOfAddr (s : State) (a : Nat) : Option (Nat × BitVec 256) :=
  (validRegions s).find? fun x => regionBase x.2 ≤ a && a < regionBase x.2 + regionSize x.2

/-! ### The model's sizes (R283, R310) -/

/-- d of a model. -/
def modelD (m : OpalImage) : Nat := 32 * m.dblk

/-- RB: the bytes of one row, 2.0625 · d. -/
def rowBytes (m : OpalImage) : Nat := 66 * m.dblk

/-- W_a. -/
def ringLen (m : OpalImage) : Nat := m.window + m.fres

/-- Rounds up to whole 64-byte lines. -/
def lines64 (n : Nat) : Nat := cdiv n 64 * 64

/-- Bytes of an instrument cache; a model without layers has none (R283, R37). -/
def cacheBytes (m : OpalImage) : Nat := if m.nlayer = 0 then 0 else lines64 (256 + m.nlayer * ringLen m * rowBytes m)

/-- Bytes of a rollout scratch slot (R310). -/
def scratchBytes (m : OpalImage) : Nat := lines64 (m.nlayer * 256 * rowBytes m)

/-- The Opal model of a context. -/
def modelOf (s : State) (c : Nat) : Option OpalImage := (ctxAt s c).image.bind (·.opal)

/-- Bytes of a cache of context `c`. -/
def ctxCacheBytes (s : State) (c : Nat) : Nat := match modelOf s c with | none => 0 | some m => cacheBytes m

/-! ### The placement directory (R319) -/

/-- Directory entry of an instrument. -/
def dirAt (s : State) (i : Nat) : Dir := tabGet Dir.reset s.store.dir i

/-- Writes a directory entry. -/
def setDir (s : State) (i : Nat) (d : Dir) : State :=
  { s with store := { s.store with dir := tabSet Dir.reset s.store.dir i d } }

/-- The cache of an instrument. -/
def cacheAt (s : State) (i : Nat) : Cache := tabGet Cache.reset s.store.caches i

/-- Writes a cache. -/
def setCache (s : State) (i : Nat) (x : Cache) : State :=
  { s with store := { s.store with caches := tabSet Cache.reset s.store.caches i x } }

/-- The migration of an instrument. -/
def migAt (s : State) (i : Nat) : Option Migration := tabGet none s.store.migs i

/-- Writes the migration of an instrument. -/
def setMig (s : State) (i : Nat) (m : Option Migration) : State :=
  { s with store := { s.store with migs := tabSet none s.store.migs i m } }

/-- The context whose instrument set holds an instrument. -/
def ownerOf (s : State) (i : Nat) : Option Nat := allCtxs.find? fun c => inInstruments s c i

/-- A cache of an instrument that is reset: NEXT, every VALID bit clear, and the tag of the context that holds it (R14). -/
def emptyCache (s : State) (i : Nat) (n : BitVec 32) : Cache :=
  { Cache.reset with next := n, tag := match ownerOf s i with | some c => ctxTag s c | none => 0 }

/-- Where admission places an instrument's work: its directory entry, or the destination once a migration has booked its
lock (R325). -/
def placement (s : State) (i : Nat) : Nat :=
  match migAt s i with
  | some m => if m.phase = .locking || m.phase = .locked then m.dest else (dirAt s i).pl
  | none => (dirAt s i).pl

/-- Directory entries of the instruments of a context. -/
def ctxDir (s : State) (c : Nat) : List (Nat × Dir) := s.store.dir.filter fun x => inInstruments s c x.1

/-! ### Lines of local space (R308, R318, R329) -/

/-- The banks that local space was last laid over: the usable ones and those retired since the last relayout (R331). -/
def formerBanks (s : State) : List Nat := (List.range 6).filter fun b => bit (val s 0x2700 1) b || (s.store.relayBanks.contains b)

/-- Bank and row of a local line, counted in 64 bytes: stripe k lies in the bank at position k mod U_b, and a bank holds its
stripes one after another, 16 to a row of 4,096 bytes (R308, R329). -/
def lineRow (s : State) (line : Nat) : Option (Nat × Nat) :=
  let banks := formerBanks s
  let k := line / 4
  (banks[k % banks.length]?).map fun b => (b, k / banks.length / 16)

/-- The local lines of a row of a bank. -/
def rowLines (s : State) (bank row : Nat) : List Nat :=
  let banks := formerBanks s
  match banks.idxOf? bank with
  | none => []
  | some i => (List.range 64).map fun l => ((16 * row + l / 4) * banks.length + i) * 4 + l % 4

/-- Lines join those that read as uncorrectable until they are next written (R329). -/
def spoilLines (s : State) (ls : List Nat) : State :=
  { s with store := { s.store with badLines := (s.store.badLines ++ ls).eraseDups } }

/-- Lines touched by a write of `n` bytes from local address `a` read as written again. -/
def writeLines (s : State) (a n : Nat) : State :=
  if s.store.badLines.isEmpty || n = 0 then s
  else { s with store := { s.store with badLines := s.store.badLines.filter fun l => l < a / 64 || (a + n - 1) / 64 < l } }

/-- A write of `n` bytes at offset `o` of an instrument's cache, where that is local. -/
def writeLocal (s : State) (i o n : Nat) : State :=
  let d := dirAt s i
  if d.pl = 1 then writeLines s (d.addr.toNat + o) n else s

/-- A cache resets to NEXT equal to the instrument's next sequence number, with every VALID bit clear (R317). -/
def resetCache (s : State) (i : Nat) : State :=
  setCache (writeLocal s i 0 256) i (emptyCache s i (dirAt s i).nseq)

/-! ### Allocation (R310, R320) -/

/-- Runs of a context at placement `pl`: its caches, the destinations of its migrations and the sources it has still to
free; in local space also its scratch slots and resend ring. -/
def ctxRuns (s : State) (c pl : Nat) : List (Nat × Nat) :=
  let n := ctxCacheBytes s c
  let caches := (ctxDir s c).filterMap fun x => if x.2.pl = pl then some (x.2.addr.toNat, n) else none
  let migs := s.store.migs.filterMap fun x =>
    match x.2 with
    | some m => if m.ctx = c && m.dest = pl && m.phase != .switched then some (m.addr.toNat, n) else none
    | none => none
  let olds := s.store.releasing.filterMap fun x =>
    match x.2 with
    | some (p, a) => if p = pl && inInstruments s c x.1 then some (a.toNat, n) else none
    | none => none
  caches ++ migs ++ olds ++ (if pl = 1 then (ctxAt s c).runs else [])

/-- Runs of every context at a placement. -/
def allRuns (s : State) (pl : Nat) : List (Nat × Nat) := s.ctxs.flatMap fun x => ctxRuns s x.1 pl

/-- Bytes a context holds at a placement (CB+0x06:03, :04). -/
def bytesIn (s : State) (c pl : Nat) : Nat := ((ctxRuns s c pl).map (·.2)).sum

/-- The lowest address in [lo, hi) at which `n` bytes fit among the runs in use (DESIGN CHOICE: first fit,
notes/assumptions/16). -/
def firstFit (runs : List (Nat × Nat)) (lo hi n : Nat) : Option Nat :=
  let fits (a : Nat) : Bool := decide (lo ≤ a) && decide (a + n ≤ hi) && runs.all fun r => decide (a + n ≤ r.1 || r.1 + r.2 ≤ a)
  let cands := (lo :: runs.map fun r => r.1 + r.2).filter fits
  cands.foldl (fun b a => match b with | none => some a | some x => some (min x a)) none

/-- Room for `n` bytes in local space: the capacity, and the quota of the context (R310). -/
def fitLocal (s : State) (c n : Nat) : Option Nat :=
  if bytesIn s c 1 + n ≤ val s (cb c 6) 1 then firstFit (allRuns s 1) 0 (localCapacity s) n else none

/-- Room for `n` bytes in one region. -/
def fitRegion (s : State) (v : BitVec 256) (n : Nat) : Option Nat :=
  firstFit (allRuns s 2) (regionBase v) (regionBase v + regionSize v) n

/-- Room for `n` bytes in the regions of a context, in increasing number (R320). -/
def fitRemote (s : State) (c n : Nat) : Option (Nat × Nat) :=
  (regionsOf s c).findSome? fun r => (fitRegion s r.2 n).map fun a => (r.1, a)

/-- Places the cache of an instrument: local while the quota has room, then remote (R320). -/
def placeCache (s : State) (c i : Nat) : Option State :=
  let n := ctxCacheBytes s c
  if n = 0 then some s
  else
    let d := dirAt s i
    match fitLocal s c n with
    | some a => some (setDir s i { d with pl := 1, addr := BitVec.ofNat 34 a, region := 0 })
    | none =>
      match fitRemote s c n with
      | some (r, a) => some (setDir s i { d with pl := 2, addr := BitVec.ofNat 34 a, region := BitVec.ofNat 6 r })
      | none => none

end Sys2Proof.Machine
end

