-- ==== Sys2Proof/Machine/Teardown.lean ====
section
/-! DEFINITION. Faults and teardown (16): retirement bookkeeping, thresholds, and the entry of a context into Recovering,
which is the one shared operation for every cause (R484 step 1, R486, R487, R490, R584). -/

namespace Sys2Proof.Machine

/-! ### Retirement of units (R495–R497) -/

/-- The spare budget of a unit type (R497). -/
def spareBudget (type : Nat) : Nat :=
  match type with
  | 1 => 1
  | 2 => 32
  | 3 => 2
  | 4 => 128
  | 5 => 32
  | _ => 0

/-- A unit is retired: entry 0x2C04, the EMCY, and the budget bit when `count` retirements use the budget up. -/
def noteRetired (s : State) (type index count : Nat) : State :=
  let spent := spareBudget type ≤ count
  let s := if spent then put s 0x2C10 7 (val s 0x2C10 7 ||| 2 ^ (type - 1)) else s
  let a := type + 256 * index
  let s := soot s 0x2C04 none a (0x0206 + (if spent then 2 ^ 31 else 0))
  emcy s 0x5000 (toLe 2 (a % 65536))

/-- Code of a domain state in entry 0x2D04 (R568, R569). -/
def stateCode (x : DomState) : Nat := match x with | .on => 0 | .banked => 1 | .cold => 2

/-- A domain's change from its state to retired is logged (R568, R569). -/
def logRetired (s : State) (d : Nat) : State := soot s 0x2D04 none d (stateCode (domAt s d).state + 256 * 3)

/-- The instant of the model's own clock in which threshold windows are reckoned, in time-base cycles. -/
def cyclesPerMs : Nat := 625000

/-- Counts an event of a unit toward its threshold (R495, R496): whether the threshold is reached within its window. -/
def strike (s : State) (type index : Nat) : Bool × State :=
  let thr := val s 0x2C20 type
  let window := thr / 65536 * cyclesPerMs
  let live := (type, index, s.sys.cycles) :: s.recov.struck.filter fun x =>
    !(x.1 = type && x.2.1 = index) || s.sys.cycles ≤ x.2.2 + window
  let n := (live.filter fun x => x.1 = type && x.2.1 = index).length
  if thr % 65536 ≤ n then
    (true, { s with recov := { s.recov with struck := live.filter fun x => !(x.1 = type && x.2.1 = index) } })
  else (false, { s with recov := { s.recov with struck := live } })

/-! ### Entering Recovering -/

/-- Depths of the input queues of every site of the configuration whose units fire, for the dump (R484 step 1, R500). -/
def queueDepths (s : State) (c : Nat) : List (Nat × Nat × Nat × Nat) :=
  let run := (ctxAt s c).run
  match firingConfig s c with
  | none => []
  | some (_, g) =>
    g.units.map fun u =>
      let d (k : Nat) := (tabGet [] run.queues (4 * u.1 + k)).length
      (u.1, d 0, d 1, d 2)

/-- The dump slot that stands for none. -/
def noDump : Nat := 0xFF

/-- A load ends in failure: the context returns to Free with the cause in Last fault (R18, R584), its reservations end
(R99) and the staging area is free again (R541). -/
def loadFail (s : State) (c cause : Nat) : State :=
  let s := put (setCtxState s c .free) (cb c 0) 0x0A cause
  let s := setCtx s c { ctxAt s c with image := none, td := none }
  let s := allPorts.foldl (fun s p =>
    let x := portAt s p
    setPort s p { x with reserved := x.reserved.filter fun r => r.2 != c }) s
  put s 0x2020 4 0

/-- Regions of a context become fenced (R327). -/
def fenceRegions (s : State) (c : Nat) : State :=
  let regions := s.store.regions.map fun x =>
    let v := x.2.toNat
    if bit v 0 && bits v 2 1 = 0 && bits v 13 8 = c then (x.1, BitVec.ofNat 256 (v + 2)) else x
  { s with store := { s.store with regions := regions } }

/-- Migrations of a context that have not switched are abandoned: LOCK and MIG clear and the destination is free (R326). -/
def abandonMigrations (s : State) (c : Nat) : State :=
  let gone := s.store.migs.filter fun x => match x.2 with | some m => m.ctx = c && m.phase != .switched | none => false
  gone.foldl (fun s x =>
    let d := tabGet Dir.reset s.store.dir x.1
    { s with store := { s.store with
        migs := tabSet none s.store.migs x.1 none,
        dir := tabSet Dir.reset s.store.dir x.1 { d with lock := false, mig := false } } }) s

/-- Aborts the open segmented downloads to a context's block (R487). -/
def abortDownloads (s : State) (c : Nat) : State :=
  [Path.can, Path.mailbox, Path.tap].foldl (fun s p =>
    match xferOf s p with
    | none => s
    | some t =>
      if !t.upload && cb c 0 ≤ t.index && t.index < cb c 16 then
        respond (closeXfer s p) t.who t.index t.sub abState []
      else s) s

/-- Every admitted message of a context without delivery receives a no-send record; unreleased replies are suppressed and
released ones whose commit point has not passed are to be stomped (R486, R487). -/
def teardownNoSends (s : State) (c : Nat) : State :=
  let s := s.chim.replies.foldl (fun s x =>
    match replyAt s x.1 with
    | none => s
    | some r =>
      if r.ctx ≠ c then s
      else match r.state with
        | .waiting | .queued | .late => bump (suppress s x.1 r) (cb c 0x0C) 0x0C
        | .sending => if r.commit = none then setReply s x.1 { r with torn := true } else s
        | .ended => s) s
  s.work.msgs.foldl (fun s x =>
    match x.2 with
    | none => s
    | some m => if m.ctx = c then noSend s x.1 (cb c 0x0C) 0x0C else s) s

/-- The ledger bookings of a context's messages in flight, for the dump (R500): predicted arrival at the Chimney, deadline,
and layout. -/
def openBookings (s : State) (c : Nat) : List (BitVec 32 × BitVec 32 × Nat) :=
  s.work.msgs.filterMap fun x =>
    match x.2 with
    | some m =>
      if m.ctx = c && openMsg m then some ((stampOf m.arrive).1, (stampOf (m.deadline.getD 0)).1, m.layout) else none
    | none => none

/-- Begins a teardown record, or that of a load, in the wait of R17 (R484 step 2). -/
def startTeardown (s : State) (c cause : Nat) : State :=
  setCtx s c { ctxAt s c with
    td := some { phase := .awaitGen, t0 := baseE (baseAt s (logBase s)), cause := BitVec.ofNat 16 cause,
                 genOld := BitVec.ofNat 8 (ctxGen s c), unloadNext := false, dump := noDump, logSeq := sootSeq s,
                 depths := queueDepths s c, bookings := openBookings s c, began := elapsed s, escalations := [] } }

/-- The teardown record takes the SEQ of the entry 0x2C01 just written (LSEQ of R500); 0 where the log suppressed it. -/
def noteEntry (s : State) (c : Nat) : State :=
  let q := match s.recov.soot.head? with | some e => if e.event = 0x2C01 then e.seq else 0 | none => 0
  let x := ctxAt s c
  setCtx s c { x with td := x.td.map fun t => { t with logSeq := q } }

/-- Step 1 of R484 for a context that is Open or Closed. -/
def enterNow (s : State) (c cause : Nat) : State :=
  let s := startTeardown s c cause
  let g := ctxGen s c
  let s := noteEntry (sootCtx s c 0x2C01 cause (g + 256 * ((g + 1) % 256))) c
  let s := put (setCtxState s c .recovering) (cb c 0) 0x0A cause
  let s := bump32 (bump32 s (cb c 0) 9) 0x2C10 8
  let s := if 0x0211 ≤ cause && cause ≤ 0x0215 then bump32 s (cb c 0x0C) 0x0B else s
  let s := setCtx s c { ctxAt s c with frozen := true, storms := (elapsed s :: (ctxAt s c).storms).take 4 }
  let s := abortDownloads s c
  let s := teardownNoSends s c
  let s := fenceRegions (abandonMigrations s c) c
  let s := emcy s 0xFF01 (BitVec.ofNat 8 c :: toLe 2 cause)
  if cause = 0x0207 then s else sendBeacons s c cause

/-- A cause meets a context: Open and Closed enter Recovering, Recovering logs it as secondary but absorbs the retirement of a
unit (R490), Loading fails and Unloading records it (R584). -/
def enterRecovering (s : State) (c cause : Nat) : State :=
  match ctxState s c with
  | .closed => enterNow s c cause
  | .opened => enterNow s c cause
  | .recovering =>
    let g := ctxGen s c
    if cause = 0x0206 then s
    else sootCtx s c 0x2C01 (cause + 65536) (g + 256 * ((g + 1) % 256))
  | .loading => loadFail s c cause
  | .unloading => sootCtx (put s (cb c 0) 0x0A cause) c 0x2C09 cause 5
  | .free => s

end Sys2Proof.Machine
end

