-- ==== Sys2Proof/Machine/Features.lean ====
section
/-! DEFINITION. The feature stage (07): values, binning, scaling and crosses, the per-instrument state row, and the
state access of a message. -/

namespace Sys2Proof.Machine

/-! ### Values (R223, R225) -/

/-- A typed value that a transform sees. -/
inductive Value where
  | i64 (v : Int)
  | u64 (v : Nat)
  /-- a FIXED field: raw integer and decimal shift -/
  | dec (v : Int) (shift : Nat) (uns : Bool)
  | f32 (v : FVal)
  deriving DecidableEq, Repr

/-- The value of a field word by its field's kind (R178, R223); a SYMBOL has none. -/
def fieldValue (f : FieldEntry) (w : BitVec 64) : Option Value :=
  match f.kind with
  | 1 => some (.u64 w.toNat)
  | 2 => some (.i64 w.toInt)
  | 3 => some (.dec (if f.uns then w.toNat else w.toInt) f.shift f.uns)
  | 4 => some (.u64 w.toNat)
  | _ => none

/-- Step 1 of R225: the value as binary32 with one rounding. -/
def toF32 (v : Value) : BitVec 32 × Byte :=
  match v with
  | .i64 v => enc32 0 (intVal v)
  | .u64 v => enc32 0 (intVal v)
  | .dec v k _ => enc32 0 (decimalVal v k)
  | .f32 v => enc32 0 v

/-! ### Binning (R224) -/

/-- Whether edge word `e` is at most the value, in the value's type. -/
def edgeBelow (v : Value) (e : BitVec 64) : Bool :=
  match v with
  | .i64 v => decide (e.toInt ≤ v)
  | .u64 v => decide (e.toNat ≤ v)
  | .dec v _ uns => if uns then decide ((e.toNat : Int) ≤ v) else decide (e.toInt ≤ v)
  | .f32 v => geVal v (dec32 (BitVec.ofNat 32 e.toNat))

/-- bin(x) over the NB − 1 edges of a feature. -/
def binOf (v : Value) (nb : Nat) (edges : List (BitVec 64)) : Nat :=
  if nb = 0 then 0
  else if v = .f32 .nan then 0
  else 1 + (edges.filter fun e => edgeBelow v e).length

/-! ### Affine scaling and products (R225, R227) -/

/-- A sum that becomes a binary16 with one nearest-even rounding: odd in binary32, then even (R225). -/
def sumTo16 (a b : BitVec 32) : BitVec 16 × Byte :=
  let p := addVal (dec32 a) (dec32 b)
  match p.1 with
  | .nan => (nan16, p.2)
  | v =>
    let o := enc32Odd v
    let r := enc16 0 (dec32 o.1)
    (r.1, p.2 ||| o.2 ||| r.2)

/-- y = A · x + B in the output format, as an element (R225). -/
def affine (out : Nat) (a b : BitVec 32) (x : BitVec 32) : BitVec 32 × Byte :=
  let p := mul32 (dec32 a) (dec32 x)
  if out = 1 then
    let r := sumTo16 p.1 b
    (r.1.setWidth 32, p.2 ||| r.2)
  else
    let r := add32 p.1 b
    (r.1, p.2 ||| r.2)

/-- An F16 or F32 element as a value. -/
def elemVal (out : Nat) (e : BitVec 32) : FVal := if out = 1 then dec16 (e.setWidth 16) else dec32 e

/-- The missing value of an OUT code (R220). -/
def missingElem (out : Nat) : BitVec 32 := match out with | 0 => 0 | 1 => 0x7E00 | _ => nan32

/-! ### Rows and slots -/

/-- The state row of an instrument: its valid slots (R229). -/
def rowAt (s : State) (i : Nat) : List (Nat × BitVec 64) := tabGet [] s.work.rows i

/-- Writes a state row. -/
def setRow (s : State) (i : Nat) (r : List (Nat × BitVec 64)) : State :=
  { s with work := { s.work with rows := tabSet [] s.work.rows i r } }

/-- The content of a slot of a row; none when not valid. -/
def slotWord (r : List (Nat × BitVec 64)) (k : Nat) : Option (BitVec 64) := (r.find? fun x => x.1 = k).map (·.2)

/-- The Opal slot of an instrument (R234). -/
def slotAt (s : State) (i : Nat) : Slot := tabGet Slot.reset s.work.slots i

/-- Writes an Opal slot. -/
def setSlot (s : State) (i : Nat) (x : Slot) : State :=
  { s with work := { s.work with slots := tabSet Slot.reset s.work.slots i x } }

/-- The age of a slot read by a message whose reference stamp is N_dp (R236). -/
def slotAge (x : Slot) (ndp : BitVec 32) : Nat :=
  if x.old then 0xFFFFFFFF
  else
    let d := (ndp - x.stamp).toNat
    if d < 0xC0000000 then d else 0

/-- The valid layout descriptor `l` of an image. -/
def layoutOf (m : Image) (l : Nat) : Option Layout := (m.layouts.find? fun x => x.1 = l && x.2.valid).map (·.2)

/-- The value and word of a present field of a message. -/
def msgField (m : Image) (x : Msg) (k : Nat) : Option (FieldEntry × BitVec 64) :=
  match layoutOf m x.layout with
  | none => none
  | some l =>
    match l.fields[k]?, x.fields.getD k none with
    | some f, some w => some (f, w)
    | _, _ => none

/-! ### Features (R220–R228) -/

/-- The value that feature `f` takes from its source, none when it is missing (R221). `slot` is the Opal slot the program
reads, `age` its age. -/
def sourceValue (m : Image) (x : Msg) (slot : Slot) (age : Nat) (f : FeatEntry) : Option Value :=
  match f.src with
  | 1 =>
    if bit f.lmask x.layout then
      match msgField m x f.sel with
      | some (g, w) => fieldValue g w
      | none => none
    else none
  | 2 =>
    match slotWord x.row f.sel, m.feat.slots[f.sel]? with
    | some w, some d => some (if d.fmt = 0 then .i64 w.toInt else .f32 (dec32 (w.setWidth 32)))
    | _, _ => none
  | 3 => if slot.published then some (.f32 (dec16 (slot.vals.getD f.sel 0))) else none
  | 4 => if slot.published then some (.u64 slot.seq.toNat) else none
  | 5 => if slot.published then some (.u64 age) else none
  | _ => none

/-- The edges of a BIN feature (R241). -/
def featEdges (m : Image) (f : FeatEntry) : List (BitVec 64) := (m.feat.edges.drop f.p0).take (f.p1 - 1)

/-- A feature of SRC 1–5: element, missing bit and flags. -/
def plainFeature (m : Image) (x : Msg) (slot : Slot) (age : Nat) (f : FeatEntry) : BitVec 32 × Bool × Byte :=
  match sourceValue m x slot age f with
  | none => (missingElem f.out, true, 0)
  | some v =>
    if f.out = 0 then (BitVec.ofNat 32 (binOf v f.p1 (featEdges m f)), false, 0)
    else
      let c := toF32 v
      let r := affine f.out f.a f.b c.1
      (r.1, false, c.2 ||| r.2)

/-- A cross of features `a` and `b` (R226, R227). -/
def crossFeature (f : FeatEntry) (a b : FeatEntry × BitVec 32 × Bool) : BitVec 32 × Bool × Byte :=
  if a.2.2 || b.2.2 then (missingElem f.out, true, 0)
  else if f.src = 6 then
    let i := a.2.1.toNat
    let j := b.2.1.toNat
    (BitVec.ofNat 32 (if i = 0 || j = 0 then 0 else 1 + (i - 1) * b.1.p1 + (j - 1)), false, 0)
  else
    let va := elemVal a.1.out a.2.1
    let vb := elemVal b.1.out b.2.1
    if f.out = 2 then
      let r := mul32 va vb
      (r.1, false, r.2)
    else
      let p := mulVal va vb
      let r := enc16 0 p.1
      (r.1.setWidth 32, false, p.2 ||| r.2)

/-- The whole feature vector of a message: elements with their missing bits, and the flags of all results. -/
def featureVector (m : Image) (x : Msg) (slot : Slot) (age : Nat) : List (BitVec 32 × Bool) × Byte :=
  let plain := m.feat.feats.map fun f => (f, plainFeature m x slot age f)
  let blank : FeatEntry × BitVec 32 × Bool × Byte :=
    ({ src := 0, sel := 0, lmask := 0, out := 0, p0 := 0, p1 := 0, a := 0, b := 0 }, 0, true, 0)
  let all := plain.map fun x =>
    if x.1.src = 6 || x.1.src = 7 then
      let a := plain.getD x.1.p0 blank
      let b := plain.getD x.1.p1 blank
      crossFeature x.1 (a.1, a.2.1, a.2.2.1) (b.1, b.2.1, b.2.2.1)
    else x.2
  (all.map fun r => (r.1, r.2.1), all.foldl (fun a r => a ||| r.2.2) 0)

/-- The event vector: the features of the event map, in its order (R237). -/
def eventVector (m : Image) (x : Msg) : List (BitVec 32 × Bool) :=
  m.feat.events.map fun k =>
    match m.feat.feats[k]? with
    | none => (0, true)
    | some f =>
      let r := plainFeature m x Slot.reset 0 f
      (r.1, r.2.1)

/-- The flags of the scalings that an event vector takes (R213, R225): of every message that hands Opal an event, admitted or
declined. -/
def eventFlags (m : Image) (x : Msg) : Byte :=
  m.feat.events.foldl (fun a k =>
    match m.feat.feats[k]? with
    | none => a
    | some f => a ||| (plainFeature m x Slot.reset 0 f).2.2) 0

/-! ### State updates (R229) -/

/-- The updated content of a slot from value `v` and its previous content; REF is the previous content of a DELTA's
reference slot. None leaves the slot as it is. -/
def updateSlot (d : SlotDesc) (v : Value) (word : BitVec 64) (prev ref : Option (BitVec 64)) :
    Option (BitVec 64) × Byte :=
  let f32 (x : BitVec 32 × Byte) : Option (BitVec 64) × Byte := (some (x.1.setWidth 64), x.2)
  let lo (w : BitVec 64) : BitVec 32 := w.setWidth 32
  let c := toF32 v
  let new : BitVec 64 := if d.fmt = 0 then word else c.1.setWidth 64
  match d.kind with
  | 1 => (some new, if d.fmt = 0 then 0 else c.2)
  | 2 =>
    match ref with
    | none => (none, 0)
    | some r => if d.fmt = 0 then (some (word - r), 0) else f32 (add32 c.1 (neg32 (lo r)))
  | 3 =>
    match prev with
    | none => f32 c
    | some p =>
      let a := add32 c.1 (neg32 (lo p))
      let b := enc32 fNV (scaleVal (dec32 a.1) (-(d.param : Int)))
      let r := add32 (lo p) b.1
      f32 (r.1, a.2 ||| b.2 ||| r.2)
  | 4 => (some ((prev.getD 0) + word), 0)
  | 5 =>
    match prev with
    | none => (some new, 0)
    | some p =>
      if d.fmt = 0 then (some (if word.toInt < p.toInt then word else p), 0)
      else (some (if ltVal (dec32 c.1) (dec32 (lo p)) then new else p), 0)
  | 6 =>
    match prev with
    | none => (some new, 0)
    | some p =>
      if d.fmt = 0 then (some (if p.toInt < word.toInt then word else p), 0)
      else (some (if ltVal (dec32 (lo p)) (dec32 c.1) then new else p), 0)
  | _ => (none, 0)

/-- A row with slot `k` written, in slot order. -/
def putSlotWord (r : List (Nat × BitVec 64)) (k : Nat) (w : BitVec 64) : List (Nat × BitVec 64) := tabPut r k w

/-- All updates of a message on the row as it stood before, written together (R229, R230), and their flags. -/
def updateRow (m : Image) (x : Msg) (row : List (Nat × BitVec 64)) : List (Nat × BitVec 64) × Byte :=
  (m.feat.slots.zipIdx).foldl (fun (acc : List (Nat × BitVec 64) × Byte) e =>
    let d := e.1
    if !bit d.lmask x.layout then acc
    else
      let src : Option (Value × BitVec 64) :=
        if d.kind = 4 && d.srcf = 0xFF then some (.u64 1, 1)
        else match msgField m x d.srcf with
          | none => none
          | some (f, w) => (fieldValue f w).map fun v => (v, w)
      match src with
      | none => acc
      | some (v, w) =>
        let r := updateSlot d v w (slotWord row e.2) (if d.kind = 2 then slotWord row d.param else none)
        match r.1 with
        | none => (acc.1, acc.2 ||| r.2)
        | some n => (putSlotWord acc.1 e.2 n, acc.2 ||| r.2)) (row, 0)

/-! ### Delivery to the engines -/

/-- ORs flags into a sticky flag word (R213). -/
def stick (s : State) (i sub : Nat) (f : Byte) : State :=
  if f = 0 then s else put s i sub (val s i sub ||| f.toNat)

/-- Builds and delivers the feature vector of an admitted message: from the snapshot of its state access for T and H,
from its own step's publication for S (R235). -/
def deliverFeatures (s : State) (m : Nat) (slot : Slot) (age : Nat) : State :=
  match msgAt s m with
  | none => s
  | some x =>
    match (ctxAt s x.ctx).image with
    | none => s
    | some im =>
      let v := featureVector im x slot age
      let s := stick s (cb x.ctx 3) 2 v.2
      let s := bumpBy 64 s (cb x.ctx 3) 4 (v.1.filter (·.2)).length
      setMsg s m { x with features := v.1 }

/-- Appends a message to the admitted messages of its program in the configuration whose units fire: for each FIN site to
emit its token, and for the record that COUT owes it (R368, R370). Where no configuration runs, its record is discarded
(R388). -/
def enterConfig (s : State) (m : Nat) : State :=
  match msgAt s m with
  | none => s
  | some x =>
    let k := ctxAt s x.ctx
    match firingConfig s x.ctx with
    | none => noSend s m (cb x.ctx 7) 9
    | some (_, g) =>
      let fins := g.units.filter fun u => u.2.kind = 5 && u.2.op = 1 && u.2.mode = x.pindex
      let run := { k.run with
        open_ := tabSet [] k.run.open_ x.pindex (tabGet [] k.run.open_ x.pindex ++ [m]),
        fins := fins.foldl (fun t u => tabSet [] t u.1 (tabGet [] t u.1 ++ [m])) k.run.fins }
      sampleNow (setCtx s x.ctx { k with run := run }) x.ctx 4 1 x.layout (x.instr.getD 0) 0 []

/-- A message of an H program leaves the feature stage (R368, R386): it enters the configuration that it was admitted for,
or waits while a swap still brings that one in; where its record was discarded, it enters none. -/
def enterHearth (s : State) (m : Nat) : State :=
  match msgAt s m with
  | none => s
  | some x =>
    match x.side with
    | .running => enterConfig s m
    | .incoming =>
      let k := ctxAt s x.ctx
      if k.run.swap.isSome then setCtx s x.ctx { k with run := { k.run with waiting := k.run.waiting ++ [m] } } else enterConfig s m
    | .cut => s

/-- The value of a context's risk reference for a message: a present field word, or an INT64 slot as read in its access
(R416). -/
def riskReference (s : State) (im : Image) (x : Msg) : Option (BitVec 64) :=
  let src := val s (cb x.ctx 9) 5
  let k := src % 256
  match bits src 9 8 with
  | 1 => (msgField im x k).map (·.2)
  | 2 => match im.feat.slots[k]? with
    | some d => if d.fmt = 0 then slotWord x.row k else none
    | none => none
  | _ => none

/-- The next sequence number of an instrument is assigned to the message's event (R287); after 0xFFFF_FFFF comes 1
(R286). A message whose layout makes no event, or whose context has no model, takes none. -/
def assignSeq (s : State) (x : Msg) (i : Nat) : Msg × State :=
  match modelOf s x.ctx with
  | none => (x, s)
  | some m =>
    if bit m.elmask x.layout then
      let d := dirAt s i
      ({ x with seq := some d.nseq, awaitStep := x.fate = .admitted && x.kind = .s },
        setDir s i { d with nseq := if d.nseq + 1 = 0 then 1 else d.nseq + 1 })
    else (x, s)

/-- Field words 0 and 1 of a message, as a Grate sample shows them (R501). -/
def messageWords (x : Msg) : Bytes := [0, 1].flatMap fun k => toLe 8 ((x.fields.getD k none).getD 0).toNat

/-- One atomic state access of a message (R230, R231): the row is read and all updates are written together, the Opal slot
is read, and the event and feature vectors are built. -/
def stateAccess (s : State) (m : Nat) : State :=
  match msgAt s m with
  | none => s
  | some x =>
    match (ctxAt s x.ctx).image, x.instr with
    | some im, some i =>
      let row := rowAt s i
      let slot := slotAt s i
      let (x, s) := assignSeq s x i
      let x := { x with row := row, slot := slot, accessed := true }
      let u := updateRow im x row
      let x := { x with event := eventVector im x, riskRef := riskReference s im x }
      let s := setRow (setMsg s m x) i u.1
      let s := stick s (cb x.ctx 3) 2 (u.2 ||| (if x.seq.isSome then eventFlags im x else 0))
      let s := bump s (cb x.ctx 3) 3
      let s := progress s x.ctx 1
      let s := sampleNow s x.ctx 1 2 x.layout i (x.seq.getD 0).toNat (messageWords x)
      if x.fate = .admitted then
        match x.kind with
        | .t => deliverFeatures s m slot (slotAge slot x.ndp)
        | .h => enterHearth (deliverFeatures s m slot (slotAge slot x.ndp)) m
        | .s => s
      else s
    | _, _ => s

/-- The arbitration groups of a context's state table (R583). -/
def accessGroups (s : State) (c : Nat) : List Group := tabGet [] s.work.access c

/-- Writes the arbitration groups of a context's state table. -/
def setAccess (s : State) (c : Nat) (l : List Group) : State :=
  { s with work := { s.work with access := tabSet [] s.work.access c l } }

/-- An item arrives at an arbiter at time `t`: it joins the open group, or opens the next one (R583). -/
def joinGroup (l : List Group) (t : Time) (item : Nat) : List Group :=
  match l.getLast? with
  | none => [{ opened := t, items := [item] }]
  | some g =>
    if t ≤ g.opened + tenths 3 then l.dropLast ++ [{ g with items := g.items ++ [item] }]
    else l ++ [{ opened := t, items := [item] }]

/-- The item of a group that goes first by an order key; items of equal key keep their arrival order (R583). -/
def firstBy (key : Nat → Nat) (items : List Nat) : Option Nat :=
  items.foldl (fun b i => match b with | none => some i | some j => if key i < key j then some i else some j) none

/-- Takes the next message of a context's state table: the oldest group, by ingress port (R28). -/
def nextAccess (s : State) (c : Nat) : Option (Nat × List Group) :=
  match accessGroups s c with
  | [] => none
  | g :: rest =>
    match firstBy (fun m => match msgAt s m with | some x => x.port | none => 0) g.items with
    | none => none
    | some m =>
      let left := g.items.erase m
      some (m, if left.isEmpty then rest else { g with items := left } :: rest)

/-- The frame of a message made updates: Bad-frame updates of R193 count them once the frame is known to be bad. -/
def countUpdate (s : State) (m : Nat) : State :=
  match msgAt s m with
  | none => s
  | some x =>
    match frameAt s x.frame with
    | none => s
    | some f =>
      let s := setFrame s x.frame { f with updates := f.updates + 1 }
      if f.eff = some false then bump s (cb x.ctx 2) 0x12 else s

/-- Writes entry 0x2304 once a bad frame has ended and the last of its messages has made its access (R193). -/
def logBadFrame (s : State) (f : Nat) : State :=
  match frameAt s f with
  | none => s
  | some x =>
    let waiting := x.messages.any fun m => match msgAt s m with
      | some y => y.instr.isSome && !y.accessed
      | none => false
    match x.steer with
    | some (_, .context c _) =>
      if x.eff = some false && x.ended.isSome && !x.logged && !waiting && 0 < x.updates then
        sootCtx (setFrame s f { x with logged := true }) c 0x2304 x.port x.updates
      else s
    | _ => s

/-- STATE_ACCESS (R230, R232, R233): the next message of the context's state table, in arbitration-group order. While the
feature stage domain is not On its table takes no access, and the messages wait. -/
def execStateAccess (c : BitVec 6) (found : RowFault) (s : State) : Host.Outcome State Fault Refusal :=
  let c := c.toNat
  .next (
    match (if domIsOn s 9 then nextAccess s c else none) with
    | none => s
    | some (m, rest) =>
      let s := setAccess s c rest
      let i := ((msgAt s m).bind (·.instr)).getD 0
      let f := ((msgAt s m).map (·.frame)).getD 0
      let s := match found with
        | .row => sootCtx (bump32 (setRow s i []) (cb c 3) 8) c 0x2401 i 0
        | .corrected => bump s 0x2400 3
        | _ => s
      let s := logBadFrame (countUpdate (stateAccess s m) m) f
      match found with
      | .edge => enterRecovering s c 0x0209
      | _ => s)

/-- The rules of CB+0x03:05 (R232, R244). -/
def writeStateClear (c : Nat) (data : Bytes) (s : State) : Ans :=
  let v := leNat data
  if v = 0xFFFF then .ok ((instruments s c).foldl (fun s i => setRow s i []) s)
  else if v < 16384 && inInstruments s c v then .ok (setRow s v [])
  else .error abRange

/-- STATE_CLEAR (R232). -/
def execStateClear (q : Requester) (c : BitVec 6) (value : BitVec 16) (s : State) : Host.Outcome State Fault Refusal :=
  .next (request s q (cb c.toNat 3) 5 (toLe 2 value.toNat) (writeStateClear c.toNat (toLe 2 value.toNat)))

/-- OLD_SWEEP (R236): OLD is set on each published slot whose age has reached 2^31 ns. A stamp of 0xC000_0000 ns or more is that
of a slot published before a backward step, whose age is 0. -/
def execOldSweep (s : State) : Host.Outcome State Fault Refusal :=
  let now := (baseAt s (admBase s)).n
  let slots := s.work.slots.map fun x =>
    let d := (now - x.2.stamp).toNat
    if x.2.published && decide (2 ^ 31 ≤ d) && decide (d < 0xC0000000) then (x.1, { x.2 with old := true }) else x
  .next { s with work := { s.work with slots := slots, swept := admNow s } }

end Sys2Proof.Machine
end

