-- ==== Sys2Proof/Machine/GarnetOps.lean ====
section
/-! DEFINITION. Garnet's slots, slices and passes (08): which ensemble a program runs on, where its trees lie, and how many
passes it takes. -/

namespace Sys2Proof.Machine

/-- The numbers of the slices. -/
def allSlices : List Nat := List.range 512

/-- The retired slices (0x2500:02): bit s of a 64-byte value. -/
def sliceRetired (s : State) (k : Nat) : Bool := bit (val s 0x2500 2) k

/-- U (0x2500:01). -/
def usableSlices (s : State) : Nat := val s 0x2500 1

/-- The domain of a slice's quadrant (R246, R544). -/
def sliceDomain (k : Nat) : Nat := 10 + k / 128

/-- Ensemble slot `k` of a context. -/
def ensAt (s : State) (c k : Nat) : EnsSlot := tabGet EnsSlot.reset (ctxAt s c).ens k

/-- Writes an ensemble slot. -/
def setEns (s : State) (c k : Nat) (x : EnsSlot) : State :=
  let r := ctxAt s c
  setCtx s c { r with ens := tabSet EnsSlot.reset r.ens k x }

/-- Program entry `e` of a context: its ensemble, none when not valid (R251). -/
def progAt (s : State) (c e : Nat) : Option Nat := tabGet none (ctxAt s c).progs e

/-- The program entry that serves a program of kind T or S (R251). -/
def progEntry (k : PKind) (pindex : Nat) : Nat := match k with | .s => 8 + pindex | _ => pindex

/-- Bytes of a tree record (R247). -/
def treeBytes (e : Ensemble) : Nat := 4 * (2 ^ e.depth - 1) + 2 * e.lw * 2 ^ e.depth

/-- Effective pass width W (R255). -/
def passWidth (s : State) (e : Ensemble) : Nat := min e.pw (usableSlices s)

/-- Pass count p (R255). -/
def passCount (s : State) (e : Ensemble) : Nat := if e.ntrees = 0 then 0 else cdiv e.ntrees (passWidth s e)

/-- The n of R52: trees in pass 0. -/
def firstPass (s : State) (e : Ensemble) : Nat := min e.ntrees (passWidth s e)

/-- FEAT of a node word (R248). -/
def nodeFeat (w : BitVec 32) : Nat := bits w.toNat 9 0

/-- The features that an ensemble's nodes name. -/
def ensFeats (e : Ensemble) : List Nat := (e.trees.flatMap fun t => t.nodes.map nodeFeat).eraseDups

/-- The rules that can decide: up to the first OP 0, and to the first that always decides (R262). -/
def liveRules (l : List Rule) : List Rule :=
  match l with
  | [] => []
  | r :: l => if r.op = 0 then [] else if r.op = 2 then [r] else r :: liveRules l

/-- The choices an ensemble can make (R262, R263). -/
def ensChoices (e : Ensemble) : List Nat :=
  let rs := if e.argmax then e.rules.take e.lw ++ (e.rules.drop 4).take 1 else liveRules e.rules
  (rs.map fun r => r.choice.toNat).eraseDups

/-- The Garnet domains of a slot's programs: quadrant 0, and every quadrant that holds a tree (R259). -/
def ensDomains (x : EnsSlot) : List Nat := (10 :: x.place.map fun q => sliceDomain q.1).eraseDups

/-- Bytes of tree memory that an ensemble holds. -/
def ensBytes (e : Ensemble) : Nat := e.ntrees * treeBytes e

/-- The words that the trees of an ensemble slot hold in slice `k`: first word and length of each run (R247). -/
def slotRuns (x : EnsSlot) (k : Nat) : List (Nat × Nat) :=
  match x.ens with
  | none => []
  | some e => (x.place.filter fun q => q.1 = k).map fun q => (q.2, treeBytes e / 4)

/-- What a run of `r.2` words from `r.1` leaves of a free one. -/
def cutHole (r h : Nat × Nat) : List (Nat × Nat) :=
  [(h.1, min (r.1 - h.1) h.2), (max (r.1 + r.2) h.1, (h.1 + h.2) - max (r.1 + r.2) h.1)].filter fun x => x.2 ≠ 0

/-- The free runs of the 8,192 words of slice `k` (R246), lowest first: what the trees of all contexts leave of them. -/
def sliceHoles (s : State) (k : Nat) : List (Nat × Nat) :=
  (s.ctxs.flatMap fun c => c.2.ens.flatMap fun x => slotRuns x.2 k).foldl (fun hs r => hs.flatMap (cutHole r)) [(0, 8192)]

/-- Whether a word of a slice lies in the record of a tree of an ensemble slot. -/
def holdsWord (x : EnsSlot) (slice word : Nat) : Bool := (slotRuns x slice).any fun r => r.1 ≤ word && word < r.1 + r.2

/-- Bytes of tree memory that a context holds (CB+0x04:0B). -/
def ctxTreeBytes (s : State) (c : Nat) : Nat :=
  ((ctxAt s c).ens.map fun x => match x.2.ens with | none => 0 | some e => x.2.place.length * treeBytes e).sum

/-- Takes `n` words from the lowest free run that holds them: its first word and the runs that stay free (R247). The spec
names no word for a record: the lowest is the model's choice (DESIGN CHOICE, notes/assumptions/47). -/
def takeRun (n : Nat) (holes : List (Nat × Nat)) : Option (Nat × List (Nat × Nat)) :=
  match holes with
  | [] => none
  | h :: t =>
    if n ≤ h.2 then some (h.1, if h.2 = n then t else (h.1 + n, h.2 - n) :: t)
    else (takeRun n t).map fun r => (r.1, h :: r.2)

/-- Places the trees of one pass, `n` of them, in the lowest slices with room for a record of `words` words (R256). -/
def placePass (free : List (Nat × List (Nat × Nat))) (n words : Nat) :
    Option (List (Nat × Nat) × List (Nat × List (Nat × Nat))) :=
  match n, free with
  | 0, _ => some ([], free)
  | _ + 1, [] => none
  | n + 1, x :: free =>
    match takeRun words x.2 with
    | none => (placePass free (n + 1) words).map fun r => (r.1, x :: r.2)
    | some (a, holes) => (placePass free n words).map fun r => ((x.1, a) :: r.1, (x.1, holes) :: r.2)

/-- Places `n` trees pass by pass: the slice and first word of each tree. -/
def placeTrees (free : List (Nat × List (Nat × Nat))) (passes n w words : Nat) : Option (List (Nat × Nat)) :=
  match passes with
  | 0 => some []
  | passes + 1 =>
    match placePass free (min n w) words with
    | none => none
    | some (used, free) => (placeTrees free passes (n - min n w) w words).map (used ++ ·)

/-- The free runs of each usable slice. -/
def sliceFree (s : State) : List (Nat × List (Nat × Nat)) :=
  (allSlices.filter fun k => !sliceRetired s k).map fun k => (k, sliceHoles s k)

/-- Bytes free in the usable slices (0x2500:03). -/
def treeBytesFree (s : State) : Nat := 4 * ((sliceFree s).flatMap fun x => x.2.map (·.2)).sum

/-- Places an ensemble within the free tree memory and the 16 MB of the context (R256). -/
def placeEnsemble (s : State) (c : Nat) (e : Ensemble) : Option (List (Nat × Nat)) :=
  if 16777216 < ctxTreeBytes s c + ensBytes e || (passWidth s e = 0 && e.ntrees ≠ 0) then none
  else placeTrees (sliceFree s) (passCount s e) e.ntrees (passWidth s e) (treeBytes e / 4)

/-- Whether a Garnet domain holds nothing that was written before: it is Cold, or on its way to Cold or back from it (R272,
R545). -/
def quadrantCold (s : State) (d : Nat) : Bool :=
  let x := domAt s d
  x.state = .cold || x.changing = some .cold

/-- The Garnet domains that hold trees of a placement and will take their records from the image on their return. -/
def coldQuadrants (s : State) (place : List (Nat × Nat)) : List Nat :=
  ((place.map fun q => sliceDomain q.1).eraseDups).filter (quadrantCold s)

/-- An ensemble as placed now: with the pass width of the slices that are usable (R255). -/
def placedSlot (s : State) (st : EnsState) (e : Ensemble) (place : List (Nat × Nat)) : EnsSlot :=
  { state := st, ens := some e, place := place, width := passWidth s e, damaged := false, lost := coldQuadrants s place }

/-- Whether a program entry of a context names slot `k`. -/
def slotNamed (s : State) (c k : Nat) : Bool := (ctxAt s c).progs.any fun p => p.2 == some k

/-- Whether an admitted message still holds ensemble slot `k`: its decision is not made (R265, R267). -/
def slotHeld (s : State) (c k : Nat) : Bool :=
  s.work.msgs.any fun x =>
    match x.2 with
    | some m => m.ctx = c && m.kind ≠ .h && m.ens = k && openMsg m && m.record.isNone
    | none => false

/-- Draining slots that no message holds any longer become Loaded (R265). -/
def settleEns (s : State) (c : Nat) : State :=
  (List.range 16).foldl (fun s k =>
    let x := ensAt s c k
    if x.state = .draining && !slotHeld s c k then setEns s c k { x with state := .loaded } else s) s

/-- A decision record is handed to the Chimney and waits in its intake (R264, R370, R403). -/
def handRecord (s : State) (m : Nat) (x : Msg) (r : Record) : State :=
  let s := setMsg s m { x with record := some r }
  { s with chim := { s.chim with intake := tabSet [] s.chim.intake x.ctx (tabGet [] s.chim.intake x.ctx ++ [m]) } }

/-- A message whose passes may run: admitted, its feature vector delivered, and no decision made. -/
def inGarnet (x : Msg) : Bool := openMsg x && x.kind != .h && x.accessed && !x.awaitStep && x.record.isNone

/-- A Garnet sample of message `m` (R501): its passes so far, with score elements as binary16. -/
def garnetSample (s : State) (m kind : Nat) (scores : List (BitVec 32)) : State :=
  match msgAt s m with
  | none => s
  | some x => sampleNow s x.ctx 2 kind x.layout (x.instr.getD 0) x.pass (scores.flatMap fun v => toLe 2 (narrow v).1.toNat)

/-- The pass width that a message runs with: that of its first pass, or of its ensemble's placement before it. -/
def widthOf (x : Msg) (y : EnsSlot) : Nat := if x.pass = 0 then y.width else x.width

/-- Whether a sample of a message at ensemble slot `y` is in slice `k`: a tree of a pass that has not left the reduction network
lies there. -/
def sampleIn (x : Msg) (y : EnsSlot) (k : Nat) : Bool := (y.place.drop (x.pass * widthOf x y)).any fun q => q.1 = k

/-- The messages of ensemble slot `n` of a context that have a sample in slice `k`. -/
def samplesIn (s : State) (c n k : Nat) : List Nat :=
  s.work.msgs.filterMap fun x =>
    match x.2 with
    | some m => if m.ctx = c && m.ens = n && inGarnet m && sampleIn m (ensAt s c n) k then some x.1 else none
    | none => none

/-- A slice is retired (R271): it leaves the usable slices, the messages with a sample in it become no-send decisions, which no
counter of R428 names and R273 keeps out of Tree errors (DEDUCED, notes/assumptions/47), and the ensembles with a tree in it wait
to be placed again. -/
def retireSlice (s : State) (k : Nat) : State :=
  if sliceRetired s k then s
  else
    let s := put s 0x2500 2 (val s 0x2500 2 ||| 2 ^ k)
    let s := put s 0x2500 1 ((allSlices.filter fun j => !sliceRetired s j).length)
    let hit := s.ctxs.flatMap fun c => c.2.ens.filterMap fun e => if e.2.place.any fun q => q.1 = k then some (c.1, e.1) else none
    let s := hit.foldl (fun s e =>
      let t := setEns s e.1 e.2 { ensAt s e.1 e.2 with damaged := true }
      settleEns ((samplesIn s e.1 e.2 k).foldl (fun t m => deliver (garnetSample t m 3 []) m) t) e.1) s
    noteRetired s 2 k ((allSlices.filter fun j => sliceRetired s j).length)

end Sys2Proof.Machine
end

