-- ==== Sys2Proof/Machine/HearthOps.lean ====
section
/-! DEFINITION. The Hearth grid (11, 12): sites and column groups, the circuits of a configuration, which units belong to
a program, and the tokens in the queues of a running configuration. -/

namespace Sys2Proof.Machine

/-! ### Sites (R335, R336) -/

def siteCol (k : Nat) : Nat := k / 48
def siteRow (k : Nat) : Nat := k % 48

/-- Column group of a site. -/
def siteGroup (k : Nat) : Nat := siteCol k / 8

/-- The domain of a column group (R544). -/
def groupDomain (g : Nat) : Nat := 24 + g

/-- The kind of a site: 1 MAC, 2 PRED, 3 SFU, 4 MEM, 5 EDGE (R335, R340). -/
def siteKind (k : Nat) : Nat :=
  match siteRow k % 12 with
  | 0 => 5
  | 3 => 2
  | 10 => 2
  | 6 => 4
  | 11 => 4
  | 7 => 3
  | _ => 1

/-! ### Configurations (R374, R376, R377) -/

/-- The unit entry at a site of a configuration. -/
def unitAt (g : HConfig) (site : Nat) : Option UnitEntry := (g.units.find? fun u => u.1 = site).map (·.2)

/-- Whether a unit's input (0 A, 1 B, 2 C) is its immediate (R340). -/
def isImm (u : UnitEntry) (k : Nat) : Bool := bit u.flags.toNat k

/-- The circuits from one output of a site. -/
def circuitsFrom (g : HConfig) (site out : Nat) : List Circuit := g.circuits.filter fun c => c.src = site && c.out = out

/-- The circuit into one input of a site. -/
def circuitTo (g : HConfig) (site inp : Nat) : Option Circuit := g.circuits.find? fun c => c.dst = site && c.inp = inp

/-- The neighbour of a site in a direction; none off the grid (R372). -/
def neighbour (site dir : Nat) : Option Nat :=
  match dir with
  | 0 => if siteRow site = 0 then none else some (site - 1)
  | 1 => if siteCol site = 63 then none else some (site + 48)
  | 2 => if siteRow site = 47 then none else some (site + 1)
  | _ => if siteCol site = 0 then none else some (site - 48)

/-- Hop `i` of a route (R374). -/
def routeHop (r : BitVec 64) (i : Nat) : Nat := bits r.toNat (2 * i + 1) (2 * i)

/-- The links a route takes, each as its site and direction, and the site where it ends; none off the grid. -/
def routeLinks (r : BitVec 64) (n i site : Nat) : Option (List (Nat × Nat) × Nat) :=
  match n with
  | 0 => some ([], site)
  | n + 1 =>
    match neighbour site (routeHop r i) with
    | none => none
    | some t => (routeLinks r n (i + 1) t).map fun x => ((site, routeHop r i) :: x.1, x.2)

/-- The links of a circuit. -/
def circuitLinks (c : Circuit) : List (Nat × Nat) := ((routeLinks c.route c.nhop 0 c.src).map (·.1)).getD []

/-- Every site that a configuration uses, by its units and its route hops. -/
def configSites (g : HConfig) : List Nat :=
  (g.units.map (·.1) ++ g.circuits.flatMap fun c => (circuitLinks c).map (·.1)).eraseDups

/-- The column groups that a configuration uses (R385, R400). -/
def configGroups (g : HConfig) : List Nat := ((configSites g).map siteGroup).eraseDups

/-- Sources of a program: its FIN units, and the FLI units whose spread entry names it (R377). -/
def programRoots (g : HConfig) (k : Nat) : List Nat :=
  (g.units.filter fun u => u.2.kind = 5 && u.2.op = 1 && u.2.mode = k).map (·.1)
    ++ (g.units.filter fun u => u.2.kind = 5 && u.2.op = 4 && g.spreads.any fun e => e.site = u.1 && e.program = k).map (·.1)

/-- Sites reached from a set through circuits. -/
def reachSites (circuits : List Circuit) (n : Nat) (seen : List Nat) : List Nat :=
  match n with
  | 0 => seen
  | n + 1 =>
    let next := (circuits.filter fun c => seen.contains c.src && !seen.contains c.dst).map (·.dst)
    if next.isEmpty then seen else reachSites circuits n (seen ++ next.eraseDups)

/-- The sites of the units of program `k` (R377). -/
def programSites (g : HConfig) (k : Nat) : List Nat := reachSites g.circuits g.units.length (programRoots g k)

/-- The program that a site's unit belongs to. -/
def siteProgram (g : HConfig) (site : Nat) : Option Nat :=
  (List.range 8).find? fun k => (programSites g k).contains site

/-- The spread entry of an FLO or FLI unit (R397, R398). -/
def spreadAt (g : HConfig) (site : Nat) : Option Spread := g.spreads.find? fun e => e.site = site

/-- The spread entries of a program. -/
def programSpreads (g : HConfig) (k : Nat) : List Spread := g.spreads.filter fun e => e.program = k

/-- The domains of an H program's column groups and Flue halves (R45, R459). -/
def programDomains (g : HConfig) (k : Nat) : List Nat :=
  let sites := programSites g k
  let hops := (g.circuits.filter fun c => sites.contains c.dst).flatMap fun c => (circuitLinks c).map (·.1)
  ((sites ++ hops).map fun x => groupDomain (siteGroup x)).eraseDups
    ++ ((programSpreads g k).map fun e => chanDomain (siteChannel e.site)).eraseDups

/-! ### Queues (R342, R375, R392) -/

/-- Depth of an input queue by its QX (R374). -/
def qxDepth (qx : Nat) : Nat := match qx with | 0 => 8 | 1 => 16 | 2 => 32 | _ => 64

/-- Depth of the queue at an input of a site. -/
def queueDepth (g : HConfig) (site inp : Nat) : Nat := match circuitTo g site inp with | none => 8 | some c => qxDepth c.qx

/-- Key of a queue. -/
def qkey (site inp : Nat) : Nat := 4 * site + inp

/-- The tokens in a queue. -/
def queueAt (r : HRun) (site inp : Nat) : List Token := tabGet [] r.queues (qkey site inp)

/-- The spill list of a queue. -/
def spillAt (r : HRun) (site inp : Nat) : List Token := tabGet [] r.spill (qkey site inp)

/-- Tokens in the spill lists of a context (CB+0x07:0D). -/
def spillCount (r : HRun) : Nat := (r.spill.map fun x => x.2.length).sum

/-- Whether a queue has a free entry. While its spill list holds tokens, arriving tokens join that list, and the spill
lists together hold at most the quota (R392, R393). -/
def queueRoom (g : HConfig) (r : HRun) (quota site inp : Nat) : Bool :=
  if (spillAt r site inp).isEmpty then decide ((queueAt r site inp).length < queueDepth g site inp)
  else decide (spillCount r < quota)

/-- A token arrives at a queue. -/
def pushToken (g : HConfig) (r : HRun) (site inp : Nat) (t : Token) : HRun :=
  if (spillAt r site inp).isEmpty && decide ((queueAt r site inp).length < queueDepth g site inp) then
    { r with queues := tabSet [] r.queues (qkey site inp) (queueAt r site inp ++ [t]) }
  else { r with spill := tabSet [] r.spill (qkey site inp) (spillAt r site inp ++ [t]) }

/-- The token at the head of a queue leaves it; the spill list refills the queue as room appears (R392). -/
def popToken (r : HRun) (site inp : Nat) : HRun :=
  match spillAt r site inp with
  | [] => { r with queues := tabSet [] r.queues (qkey site inp) (queueAt r site inp).tail }
  | t :: rest =>
    { r with queues := tabSet [] r.queues (qkey site inp) ((queueAt r site inp).tail ++ [t]),
             spill := tabSet [] r.spill (qkey site inp) rest }

/-- Whether every destination of an output has a free queue entry (R342). -/
def outputRoom (g : HConfig) (r : HRun) (quota site out : Nat) : Bool :=
  let cs := circuitsFrom g site out
  (cs.all fun c => queueRoom g r quota c.dst c.inp)
    && decide (spillCount r + (cs.filter fun c => !(spillAt r c.dst c.inp).isEmpty).length ≤ max quota (spillCount r))

/-- Writes a token to every destination of an output. -/
def emitToken (g : HConfig) (r : HRun) (site out : Nat) (t : Token) : HRun :=
  (circuitsFrom g site out).foldl (fun r c => pushToken g r c.dst c.inp t) r

/-- Tokens of a running configuration, in queues and spill lists. -/
def tokenCount (r : HRun) : Nat := (r.queues.map fun x => x.2.length).sum + (r.spill.map fun x => x.2.length).sum

end Sys2Proof.Machine
end

