-- ==== Sys2Proof/Machine/Bounds.lean ====
section
/-! DEFINITION. The latency promise (02): the terms of a bound, the work bound of each program kind, the published bounds,
and their republication. -/

namespace Sys2Proof.Machine

/-! ### Terms (R49, R50, R59, R86, R188) -/

def tRx (v : Speed) : Time := match v with | .g25 => tenths 140 | .g10 => tenths 300
def tTx (v : Speed) : Time := match v with | .g25 => tenths 120 | .g10 => tenths 260
def tVd (v : Speed) : Time := match v with | .g25 => tenths 160 | .g10 => tenths 320
def tVm (v : Speed) : Time := match v with | .g25 => tenths 100 | .g10 => tenths 240
def tRisk : Time := tenths 30

/-- D_m of a context in millionths: 1.000 in corner mode, min(1.000, D_reg · (1 + G)) in live mode (R59). -/
def dmOf (s : State) (c : Nat) : Nat :=
  if (ctxAt s c).live then min 1000000 (val s 0x2380 2 * (1000 + val s 0x2380 3)) else 1000000

/-- I of a class (R46); none for class U. -/
def classI (k : Klass) : Option Time :=
  match k with
  | .a => some (tenths 360)
  | .b => some (tenths 4540)
  | .c => some (tenths 15740)
  | .u => none

/-- Class codes of CB:0D and CB+0x02:30 (R22, R77). -/
def classCode (k : Klass) : Nat := match k with | .a => 1 | .b => 2 | .c => 3 | .u => 4

/-- The allowance W of a class (CB+0x02:21–23). -/
def allowance (s : State) (c : Nat) (k : Klass) : Time :=
  match k with
  | .a => tenths (val s (cb c 2) 0x21)
  | .b => tenths (val s (cb c 2) 0x22)
  | .c => tenths (val s (cb c 2) 0x23)
  | .u => 0

/-! ### The Opal step (R53, R314) -/

/-- β in bytes per ns at a placement: 2 remote, otherwise local. -/
def beta (s : State) (pl : Nat) : Nat :=
  if pl = 2 then min 400 (2 * um s) else if 4 ≤ ub s then 1000 else 250 * ub s

/-- λ at a placement. -/
def lambda (s : State) (c pl : Nat) : Time := if pl = 2 then tenths (1800 + 12 * (contextH s c : Int)) else tenths 80

/-- L · max(q / β, D_m · m / r), rounded up to the model's unit of time; none while β is 0. -/
def layerTime (s : State) (m : OpalImage) (pl dm : Nat) : Option Time :=
  let d := modelD m
  let q : Nat := 66 * m.dblk * (m.window + 1)
  let mac : Nat := (12 * d * d + 2 * m.window * d) * 2500000 * dm / 1000000
  let b := beta s pl
  if b = 0 then none
  else if mac * b ≤ q * 5120000000 then some (cdiv (m.nlayer * q * 5120000000) b : Nat) else some (m.nlayer * mac : Nat)

/-- t_o of a context's model at a placement (R53). -/
def stepTime (s : State) (c : Nat) (m : OpalImage) (pl dm : Nat) : Option Time :=
  let head : Time := tenths 20 + ((m.nout * modelD m * 2500000 : Nat) : Int)
  let fixed := scaled dm (tenths 40 + m.nlayer * tenths 60 + head + tenths 15)
  (layerTime s m pl dm).map fun t => fixed + lambda s c pl + t

/-! ### Programs -/

/-- Decision offset of a layout: the largest OFF + WIDTH among its USED fields and its symbol field (R180). -/
def decisionOffset (l : Layout) : Nat :=
  (l.fields.zipIdx).foldl (fun m f => if f.1.used || f.2 = l.symf then max m (f.1.off + f.1.width) else m) 0

/-- Offset past the symbol field. -/
def symbolEnd (l : Layout) : Nat := match l.fields[l.symf]? with | none => 0 | some f => f.off + f.width

/-- Whether t_sym is counted: the symbol's last byte arrives fewer than 8 bytes before the decision point (R50). -/
def symCounted (l : Layout) : Bool := decide (decisionOffset l - symbolEnd l < 8)

/-- Features used with the operands of their crosses. -/
def withOperands (im : Image) (fs : List Nat) : List FeatEntry :=
  let feats := fs.filterMap fun k => im.feat.feats[k]?
  feats ++ (feats.filter fun f => f.src = 6 || f.src = 7).flatMap fun f =>
    [f.p0, f.p1].filterMap fun k => im.feat.feats[k]?

/-- S_F: the feature stage terms of a program that uses features `fs`; `opal` says that an Opal slot read counts (R50). -/
def featureTerm (im : Image) (fs : List Nat) (opal : Bool) : Time :=
  let feats := withOperands im fs
  tenths 20 + (if feats.any fun f => f.src = 2 then tenths 10 else 0)
    + (if feats.any fun f => f.src = 6 || f.src = 7 then tenths 15 else 0)
    + (if opal && feats.any fun f => 3 ≤ f.src && f.src ≤ 5 then tenths 8 else 0)

/-- Features that the FIN units of an H program read; a missing-map word reads 64 of them (R368). -/
def hearthFeats (g : HConfig) (k : Nat) : List Nat :=
  (g.units.flatMap fun u =>
    if u.2.kind = 5 && u.2.op = 1 && u.2.mode = k then
      if u.2.sel < 0x100 then [u.2.sel]
      else if u.2.sel < 0x104 then (List.range 64).map (64 * (u.2.sel - 0x100) + ·)
      else []
    else []).eraseDups

/-- A program as admission reckons it: its class, its terms in the order the work passes them with D_m applied, its
shared stages, and the templates it can name. -/
structure Prog where
  klass : Klass
  /-- decision point to the end of the feature stage, or to the Opal step -/
  pre : Time
  /-- the own Opal step of an S program; 0 otherwise -/
  opal : Time
  /-- to the entry into Garnet's level stages -/
  mid : Time
  /-- t_H, or the level stages, reduction and decision -/
  core : Time
  /-- Chimney and risk checks -/
  post : Time
  depth : Nat
  passes : Nat
  lvl : Time
  /-- initiation interval with D_m -/
  ii : Time
  templates : List Template
  domains : List Nat
  deriving DecidableEq, Repr

/-- B_work without t_rx and t_tx. -/
def Prog.work (p : Prog) : Time := p.pre + p.opal + p.mid + p.core + p.post

/-- The templates of a context that a program can send on (R57): those its choices name, with V set and a length. -/
def sendable (im : Image) (choices : List Nat) : List Template :=
  choices.filterMap fun k =>
    match im.chim.templates[k]? with
    | none => none
    | some t => if t.valid && t.len ≠ 0 then some t else none

/-- Groups of the replica set of a context (R300): named by REPL, On, with an intact copy and a usable lane. -/
def replicaSet (s : State) (c : Nat) : List Nat :=
  match modelOf s c with
  | none => []
  | some m =>
    (List.range 4).filter fun g =>
      bit m.repl g && domIsOn s (14 + g) && !(ctxAt s c).broken.contains g && bits (val s 0x2600 1) (4 * g + 3) (4 * g) ≠ 0

/-- The Flue domains of remote Mantel work (R459). -/
def remoteDomains (s : State) : List Nat := ((mantelList s).map chanDomain).eraseDups

/-- The Mantel and Flue domains of a step at a placement (R309, R459). -/
def storeDomains (s : State) (pl : Nat) : List Nat :=
  if pl = 2 then remoteDomains s else if pl = 1 then (usableBanks s).map bankDomain else []

/-- A T or S program on ensemble slot `x` at a placement (R50–R55). -/
def treeProg (s : State) (c : Nat) (im : Image) (l : Layout) (k : PKind) (x : EnsSlot) (e : Ensemble) (pl : Nat) : Option Prog :=
  let dm := dmOf s c
  let isS := k == .s
  let p := passCount s e
  let n := firstPass s e
  let trees := 0 < e.ntrees
  let own : Option Time := if isS then (match modelOf s c with | none => none | some m => stepTime s c m pl dm) else some 0
  own.map fun own =>
    { klass := if !isS then .a else if pl = 2 then .c else .b,
      pre := scaled dm (tenths 30 + (if symCounted l then tenths 24 else 0) + featureTerm im (ensFeats e) (!isS)),
      opal := own,
      mid := scaled dm ((if isS then tenths 12 else 0) + (if trees then tenths 16 else 0)),
      core := scaled dm ((if trees then
          ((e.depth + p : Nat) - 1 : Int) * tenths 8 + tenths 6 + ((clog2 n + p : Nat) - 1 : Int) * tenths 5 else 0) + tenths 12),
      post := scaled dm (tenths 20) + tRisk,
      depth := e.depth, passes := p, lvl := scaled dm (tenths 8), ii := 0,
      templates := sendable im (ensChoices e),
      domains := [8, 9, 32] ++ ensDomains x
        ++ (if isS then (replicaSet s c).map (14 + ·) ++ storeDomains s pl else []) }

/-- An H program of a configuration (R54, R55). -/
def hearthProg (s : State) (c : Nat) (im : Image) (l : Layout) (g : HConfig) (k : Nat) : Option Prog :=
  match g.progs[k]?, g.figures[k]? with
  | some e, some f =>
    if !e.valid then none
    else
      let dm := dmOf s c
      some {
        klass := if !e.bound then .u else if (programSpreads g k).isEmpty then .b else .c,
        pre := scaled dm (tenths 30 + (if symCounted l then tenths 24 else 0) + featureTerm im (hearthFeats g k) true),
        opal := 0, mid := 0,
        core := scaled dm (tenths f.pcrit) + tenths f.xsum,
        post := scaled dm (tenths 20) + tRisk,
        depth := 0, passes := 0, lvl := 0, ii := scaled dm (tenths f.ii),
        templates := sendable im (List.range im.chim.templates.length),
        domains := [8, 9, 32] ++ programDomains g k }
  | _, _ => none

/-- The configuration that decides an H program's messages: the Active one, or the slot that a swap in progress is
bringing in (R386). -/
def decidingConfig (s : State) (c : Nat) : Option HConfig :=
  match (ctxAt s c).run.swap with
  | some w =>
    match w.dest with
    | none => none
    | some k => (tabGet none s.grid.slots k).bind (·.cfg)
  | none => (configIn s c .active).map (·.2)

/-- The program of a layout at a placement. -/
def progOf (s : State) (c : Nat) (l : Layout) (pl : Nat) : Option Prog :=
  match (ctxAt s c).image with
  | none => none
  | some im =>
    if l.pkind = 3 then
      match decidingConfig s c with
      | none => none
      | some g => hearthProg s c im l g l.pindex
    else
      let k := if l.pkind = 2 then PKind.s else PKind.t
      match progAt s c (progEntry k l.pindex) with
      | none => none
      | some e =>
        let x := ensAt s c e
        match x.ens with
        | none => none
        | some en => treeProg s c im l k x en pl

/-! ### Ports of a program (R57, R80, R82) -/

/-- The ports at which an image holds a cut-through entry at a filter index. -/
def steerPorts (im : Image) (idx : Nat) : List Nat :=
  ((im.filters.filter fun f => f.2.1 = idx && bit (filterWord f.2.2 0) 31 && bits (filterWord f.2.2 0) 28 27 = 0).map (·.1)).eraseDups

/-- The speed of a port on which a bound can hold: link up, without RS-FEC. -/
def boundSpeed (s : State) (p : Nat) : Option Speed :=
  let x := portAt s p
  if x.fec then none else linkSpeed x

/-- The largest of a term over speeds. -/
def largestTerm (f : Speed → Time) (l : List Speed) : Time := l.foldl (fun m v => max m (f v)) 0

/-- Speeds of the ports steered from: none where one runs RS-FEC, or where all are down (DEDUCED: a port that is down is
left out of the largest, notes/assumptions/17). -/
def inSpeeds (s : State) (ports : List Nat) : Option (List Speed) :=
  let up := ports.filter fun p => linkUp (portAt s p)
  if up.any fun p => (portAt s p).fec then none
  else if up.isEmpty then none
  else some (up.filterMap fun p => boundSpeed s p)

/-- t_rx and t_tx of a program over its ports (R57); none where a port gives no bound. A program that can name no template it
sends on has no egress port, and R57 gives it no t_tx: the model takes that of its ingress ports (DESIGN CHOICE,
notes/assumptions/44). -/
def portTerms (s : State) (im : Image) (l : Layout) (p : Prog) : Option (Time × Time) :=
  match inSpeeds s (steerPorts im l.filter) with
  | none => none
  | some ins =>
    let outs := p.templates.map fun t => boundSpeed s t.port
    if outs.any (·.isNone) then none
    else
      let outs := outs.filterMap id
      some (largestTerm tRx ins, largestTerm tTx (if outs.isEmpty then ins else outs))

/-- A time rounded up to 0.1 ns, as a count of 0.1 ns (R56). -/
def tenthsUp (t : Time) : Nat := cdiv t.toNat 512000000

/-- B_pub in 0.1 ns from the internal work bound and the clocked terms; none above the class limit (R46, R56). Class U
has no limit and no bound. -/
def published (s : State) (c : Nat) (k : Klass) (work rx tx : Time) : Option Nat :=
  match classI k with
  | none => none
  | some i => if i < work then none else some (tenthsUp (rx + tx + work + min (allowance s c k) (i - work)))

/-- Placements that the instruments of a context now hold: 1 local, 2 remote; local where there is none. -/
def heldPlacements (s : State) (c : Nat) : List Nat :=
  let ps := [1, 2].filter fun p => (ctxDir s c).any fun x => x.2.pl = p
  if ps.isEmpty then [1] else ps

/-- Placements for which a layout's program is bounded. -/
def progPlacements (s : State) (c : Nat) (l : Layout) : List Nat := if l.pkind = 2 then heldPlacements s c else [1]

/-- The published bound of a layout (CB+0x02:30–37): class code and B_pub, that of the slowest placement held. -/
def layoutBound (s : State) (c : Nat) (im : Image) (l : Layout) : Nat :=
  (progPlacements s c l).foldl (fun m pl =>
    match progOf s c l pl with
    | none => m
    | some p =>
      match portTerms s im l p with
      | none => m
      | some (rx, tx) =>
        match p.klass with
        | .u => max m (classCode .u * 2 ^ 28)
        | k => match published s c k p.work rx tx with
          | none => m
          | some b => max m (classCode k * 2 ^ 28 + b)) 0

/-! ### The lagged path (R48, R55, R276, R288) -/

/-- Layouts whose messages make events. -/
def eventLayouts (im : Image) (m : OpalImage) : List Layout :=
  (im.layouts.filter fun x => bit m.elmask x.1 && x.2.valid).map (·.2)

/-- Whether a context has a lagged sequence path (R276). -/
def hasLagged (s : State) (c : Nat) : Bool := match modelOf s c with | none => false | some m => m.elmask ≠ 0

/-- The terms before t_o of a lagged step, with D_m (R237, R55). Where event layouts differ in whether t_sym counts (R50), one
bound holds for all of them and the model counts it if any does (DESIGN CHOICE: R50 does not say which layout's symbol
counts, notes/assumptions/44). -/
def laggedPre (s : State) (c : Nat) (im : Image) (m : OpalImage) : Time :=
  scaled (dmOf s c) (tenths 30 + (if (eventLayouts im m).any symCounted then tenths 24 else 0) + tenths 20 + tenths 10)

/-- The speeds by which the class of a lagged path is reckoned: those of its ports that are up, with RS-FEC or not, and both
where none is up, so that a path of class U stays one whatever its ports do (R48, R288). -/
def classSpeeds (s : State) (ports : List Nat) : List Speed :=
  let up := ports.filterMap fun p => linkSpeed (portAt s p)
  if up.isEmpty then [.g25, .g10] else up

/-- The lagged step bound at a placement: class and bound in 0.1 ns; none where no port gives a bound to a path that needs one.
A step above its class limit runs as class U (R48), which no port keeps from its steps (R288). Its limit takes t_tx at its
slowest ingress port (DEDUCED, notes/assumptions/17). -/
def laggedBound (s : State) (c pl : Nat) : Option (Klass × Nat) :=
  match (ctxAt s c).image, modelOf s c with
  | some im, some m =>
    let ports := (eventLayouts im m).flatMap fun l => steerPorts im l.filter
    match stepTime s c m pl (dmOf s c) with
    | none => none
    | some own =>
      let k := if pl = 2 then Klass.c else Klass.b
      let work := laggedPre s c im m + own
      let room (v : List Speed) : Time := ((classI k).getD 0) + largestTerm tTx v - work
      if room (classSpeeds s ports) < 0 then some (.u, 0)
      else (inSpeeds s ports).map fun ins =>
        (k, tenthsUp (largestTerm tRx ins + work + min (allowance s c k) (room ins)))
  | _, _ => none

/-- The published lagged step bound (CB+0x02:38), that of the slowest placement held. -/
def laggedObject (s : State) (c : Nat) : Nat :=
  if !hasLagged s c then 0
  else (heldPlacements s c).foldl (fun m pl =>
    match laggedBound s c pl with
    | none => m
    | some (k, b) => max m (classCode k * 2 ^ 28 + b)) 0

/-! ### Publication (R58, R77) -/

/-- The published bound of layout `k` as it stands (CB+0x02:30–37). A bound is a function of the state it depends on, so
the republication of R58 is immediate (DESIGN CHOICE, notes/assumptions/18). -/
def publishedLayout (s : State) (c k : Nat) : Nat :=
  match (ctxAt s c).image with
  | none => 0
  | some im => match layoutOf im k with | none => 0 | some l => layoutBound s c im l

/-- The slowest class among a context's programs (CB:0D). -/
def highestClass (s : State) (c : Nat) : Nat :=
  match (ctxAt s c).image with
  | none => 0
  | some im => im.layouts.foldl (fun m x =>
      if !x.2.valid then m
      else (progPlacements s c x.2).foldl (fun m pl =>
        match progOf s c x.2 pl with | none => m | some p => max m (classCode p.klass)) m) 0

end Sys2Proof.Machine
end

