-- ==== Sys2Proof/Machine/Admission.lean ====
section
/-! DEFINITION. Admission (02): the tests of R61, the walk through the ledger, deadlines, and the lagged step's own
admission (R288). -/

namespace Sys2Proof.Machine

/-! ### What the ports report (R63, R122, R124) -/

/-- The wait of an express frame for what is leaving the port (R63): for the gap after what left last, and for a preemptable
frame in transmission: to its next preemption point while preemption is active, no more than R122 allows, otherwise to
its end. -/
def preemptWait (s : State) (p : Nat) : Time :=
  let x := portAt s p
  match x.tx with
  | none => idleWait s p
  | some t =>
    if t.preempted || t.lost then idleWait s p
    else
      let rest := max 0 (frameEnd s p t - elapsed s)
      if preemptActive s p then
        let most := (64 * (1 + x.frag) + 79 : Nat) * portByte x
        match preemptPoint s p t with
        | some k => min most (max 0 (fragmentEnd s p t k - elapsed s))
        | none => min most rest
      else rest

/-- The earliest start at or after `t` (admission base) of an express frame that occupies the port for `dur`, by the
TC7 gate and the preemptable frame in transmission; none where the gate never opens long enough (R63, R117). -/
def egressFree (s : State) (p : Nat) (t dur : Time) : Option Time :=
  let now := admNow s
  let t := max t (now + preemptWait s p)
  let off := (t - now).toNat / 5120000000
  (gateWaitFrom s p 7 (cdiv dur.toNat 5120000000) off).map fun w => if w = 0 then t else now + ns (off + w : Nat)

/-! ### The ledger (R62) -/

/-- Key of a Chimney order point (R32). -/
def orderKey (c : Nat) (k : PKind) (l : Klass) : Nat :=
  16 * c + 4 * (match k with | .t => 0 | .s => 1 | .h => 2) + (match l with | .a => 0 | .b => 1 | .c => 2 | .u => 3)

/-- Writes the ledger. -/
def setLedger (s : State) (l : Ledger) : State := { s with work := { s.work with ledger := l } }

/-- Usable lanes of a replica set, in increasing number. -/
def usableLanes (s : State) (groups : List Nat) : List Nat :=
  (List.range 16).filter fun k => groups.contains (k / 4) && bit (val s 0x2600 1) k

/-- The earliest-free usable lane, ties to the lower number (R290). -/
def freeLane (s : State) (groups : List Nat) : Option Nat :=
  (usableLanes s groups).foldl (fun b k =>
    match b with
    | none => some k
    | some j => if tabGet 0 s.work.ledger.lanes k < tabGet 0 s.work.ledger.lanes j then some k else some j) none

/-- L_r of a template (R187). -/
def replyLength (t : Template) : Nat := max t.len 60 + 4

/-- T_hold of a reply of `t` for a frame whose last FCS bit is predicted at `tEnd` (R191). -/
def holdTime (verified : Bool) (ingress egress : Speed) (tEnd : Time) (t : Template) : Time :=
  if verified then tEnd + tVd ingress + tTx egress
  else tEnd + tVd ingress + tVm egress - ((replyLength t - 4 : Nat) : Int) * byteTime egress

/-- What the walk of R63 finds. -/
structure Walk where
  /-- the booked lane, and start and publication of the own step -/
  lane : Option Nat
  start : Time
  pub : Time
  garnet : Option Time
  hearth : Option Time
  /-- predicted arrival at the Chimney intake after the order point -/
  arrive : Time
  /-- latest T_hold over the templates the program can name -/
  hold : Option Time
  /-- egress bookings: port, first bit, end -/
  egress : List (Nat × Time × Time)
  /-- predicted first bit; none where a gate never opens long enough -/
  pred : Option Time
  deriving DecidableEq, Repr

/-- The predicted first-bit time of a message through the ledger (R63). Before the template is known every template the
program can name is walked: the latest hold and first bit count, and each port is booked (DEDUCED,
notes/assumptions/19). -/
def walk (s : State) (x : Msg) (p : Prog) (tdp bound : Time) (ingress : Speed) (verified : Bool) : Walk :=
  let led := s.work.ledger
  let t1 := tdp + tRx ingress + p.pre
  let lane := if x.kind = .s then freeLane s (replicaSet s x.ctx) else none
  let start := match lane with
    | none => t1
    | some k => max (max t1 (tabGet 0 led.lanes k)) (tabGet 0 led.instrs (x.instr.getD 0))
  let pub := start + p.opal
  let t2 := pub + p.mid
  let entry := t2 - ((10 - p.depth : Nat) : Int) * p.lvl
  let slot := max entry led.garnet
  let t2 := if 0 < p.passes then t2 + (slot - entry) else t2
  let t2 := if x.kind = .h then max t2 (tabGet 0 led.hearth x.ctx) else t2
  let arrive := max (t2 + p.core) (tabGet 0 led.order (orderKey x.ctx x.kind p.klass))
  let ready := arrive + p.post
  let outs := p.templates.filterMap fun t => (boundSpeed s t.port).map fun v =>
    let hold := x.tEnd.map fun e => holdTime verified ingress v e t
    let dur := (replyLength t + 20 : Nat) * byteTime v
    let at0 := max (max (ready + tTx v) (tabGet 0 led.egress t.port)) (hold.getD 0)
    (t, hold, dur, egressFree s t.port at0 dur)
  let hold := outs.foldl (fun (m : Option Time) o =>
    match o.2.1, m with | none, m => m | some h, none => some h | some h, some g => some (max g h)) none
  let deadline := max (tdp + bound) (hold.getD 0)
  { lane := lane, start := start, pub := pub,
    garnet := if 0 < p.passes then some (slot + p.passes * p.lvl) else none,
    hearth := if x.kind = .h then some (t2 + p.ii) else none,
    arrive := arrive, hold := hold,
    egress := outs.filterMap fun o => o.2.2.2.map fun fb =>
      (o.1.port, fb, if o.1.kwait ≠ 0xFFFF then max (fb + o.2.2.1) (deadline + o.2.2.1) else fb + o.2.2.1),
    pred := outs.foldl (fun m o => match m, o.2.2.2 with | some a, some b => some (max a b) | _, _ => none) (some arrive) }

/-- Books the walk of an admitted message (R62). -/
def book (s : State) (x : Msg) (p : Prog) (w : Walk) : State :=
  let l := s.work.ledger
  let l := match w.garnet with | none => l | some t => { l with garnet := t }
  let l := match w.lane with
    | none => l
    | some k => { l with lanes := tabSet 0 l.lanes k w.pub, instrs := tabSet 0 l.instrs (x.instr.getD 0) w.pub }
  let l := match w.hearth with | none => l | some t => { l with hearth := tabSet 0 l.hearth x.ctx t }
  let l := { l with order := tabSet 0 l.order (orderKey x.ctx x.kind p.klass) w.arrive }
  let l := w.egress.foldl (fun (l : Ledger) e =>
    { l with egress := tabSet 0 l.egress e.1 (max (tabGet 0 l.egress e.1) e.2.2) }) l
  setLedger s l

/-! ### The tests (R61) -/

/-- Whether any domain of a list does not carry work (test 3). -/
def anyClosed (s : State) (ds : List Nat) : Bool := ds.any fun d => !domOpen s d

/-- Whether the remote window serves an instrument's cache: the Flue is up, its region is not fenced, and none of its
cores is marked unreachable (R26, R327, R454). -/
def windowReachable (s : State) (c i : Nat) : Bool :=
  let d := dirAt s i
  let at0 : BitVec 6 × BitVec 34 := match migAt s i with
    | some m => if m.phase = MigPhase.locking || m.phase = MigPhase.locked then (m.region, m.addr) else (d.region, d.addr)
    | none => (d.region, d.addr)
  let v := regionAt s at0.1.toNat
  let stripes := cdiv (at0.2.toNat % 256 + ctxCacheBytes s c) 256
  !flueDown s && regionV v && regionState v = 0 && (List.range stripes).all fun k =>
    let n := regionNode v (at0.2.toNat / 256 * 256 + 256 * k)
    !s.flue.unreachable.contains (BitVec.ofNat 16 n.1, BitVec.ofNat 16 n.2.1)

/-- Whether every spread circuit of an H program reaches its far end: its channel Up or Training, its destination not
marked. -/
def spreadReachable (s : State) (c k : Nat) : Bool :=
  match decidingConfig s c with
  | none => true
  | some g => (programSpreads g k).all fun e =>
      let ch := (chanAt s (siteChannel e.site)).state
      (ch = .up || ch = .training)
        && !s.flue.unreachable.contains (BitVec.ofNat 16 e.x, BitVec.ofNat 16 e.y)

/-- Whether the unit data that a program runs on is whole: its ensemble Active and undamaged (R270, R271), no template
of the context being rewritten (R429), and no local relayout in progress for a local S instrument (R331). -/
def programWhole (s : State) (x : Msg) (pl : Nat) : Bool :=
  (ctxAt s x.ctx).damaged.isEmpty &&
  (match x.kind with
    | .h => true
    | k =>
      match progAt s x.ctx (progEntry k x.pindex) with
      | none => false
      | some e => (ensAt s x.ctx e).state = .active && !(ensAt s x.ctx e).damaged) &&
  !(x.kind = .s && pl = 1 && s.store.relaying)

/-- The configuration of a context that a message decided now runs on: while a swap is in progress, the one that it brings
in (R386). -/
def decidingSide (s : State) (c : Nat) : HearthSide := if (ctxAt s c).run.swap.isSome then .incoming else .running

/-- Messages in the intake that a message of an H program decided now would enter: admitted for the same configuration, and
their FIN tokens not all emitted (R369, R386). -/
def intakeCount (s : State) (c k : Nat) : Nat :=
  let run := (ctxAt s c).run
  (s.work.msgs.filter fun x =>
    match x.2 with
    | some m => m.ctx = c && m.kind = .h && m.pindex = k && m.side = decidingSide s c && m.fate = .admitted && !m.delivered
        && (!m.accessed || run.waiting.contains x.1 || run.fins.any fun f => f.2.contains x.1)
    | none => false).length

/-- The bound of a message at its placement and ports, in 0.1 ns; `some none` for class U. -/
def messageBound (s : State) (x : Msg) (im : Image) (l : Layout) (p : Prog) : Option (Option Nat) :=
  if (boundSpeed s x.port).isNone then none
  else
    match portTerms s im l p with
    | none => none
    | some (rx, tx) =>
      match p.klass with
      | .u => some none
      | k => (published s x.ctx k p.work rx tx).map some

/-- Test 7 of R61 on a message with the bound `b` (R63, R64, R66): the walk, or none where the message is declined. A class U
message has no deadline, and finds room in its intake (R369). -/
def ledgerTest (s : State) (x : Msg) (l : Layout) (p : Prog) (b : Option Nat) (tdp : Time) : Option Walk :=
  let bound := tenths (b.getD 0)
  let w := walk s x p tdp bound ((boundSpeed s x.port).getD .g25) l.verified
  let fits := match b, w.pred with
    | none, _ => decide (intakeCount s x.ctx x.pindex < 64)
    | some _, none => false
    | some _, some t => decide (t ≤ max (tdp + bound) (w.hold.getD 0))
  if fits then some w else none

/-- Runs the tests of R61 in order on a message: the reason of the first that fails, or the walk and the bound. -/
def admissionTests (s : State) (x : Msg) (im : Image) (l : Layout) (tdp : Time) :
    Sum Nat (Prog × Walk × Option Nat) :=
  let pl := if x.kind = .s then placement s (x.instr.getD 0) else 1
  if ctxState s x.ctx ≠ .opened then .inl 1
  else if pl = 3 || !programWhole s x pl then .inl 6
  else
    match progOf s x.ctx l pl with
    | none => .inl 6
    | some p =>
      match messageBound s x im l p with
      | none => .inl 6
      | some b =>
        if (x.kind = .s && (replicaSet s x.ctx).isEmpty) || anyClosed s p.domains then .inl 7
        else if (x.kind = .s && pl = 2 && !windowReachable s x.ctx (x.instr.getD 0))
            || (x.kind = .h && !spreadReachable s x.ctx x.pindex) then .inl 5
        else if p.klass ≠ .u && p.domains.any fun d => s.power.breach.contains d then .inl 4
        else if (ctxAt s x.ctx).live && p.domains.any fun d => s.power.liveTrip.contains d then .inl 3
        else match ledgerTest s x l p b tdp with
          | none => .inl 2
          | some w => .inr (p, w, b)

/-- Declines message `m` with a reason (R69). -/
def decline (s : State) (m : Nat) (x : Msg) (reason : Nat) : State :=
  bump (bump (setMsg s m { x with fate := .declined reason }) (cb x.ctx 0) 7) (cb x.ctx 2) (0x26 + reason)

/-- Books an admitted message and gives it its deadline and hold delay (R62, R65). R65 reckons the hold delay against
t_dp + B_pub; a class U message has no B_pub, and the model takes 0 for it (DESIGN CHOICE, notes/assumptions/44). -/
def grant (s : State) (m : Nat) (x : Msg) (p : Prog) (w : Walk) (b : Option Nat) (tdp : Time) : State :=
  let due := tdp + tenths (b.getD 0)
  let s := book s x p w
  let ens := (progAt s x.ctx (progEntry x.kind x.pindex)).getD 0
  let i := x.instr.getD 0
  setMsg s m { x with
    fate := .admitted, klass := p.klass, bound := tenths (b.getD 0),
    deadline := b.map fun _ => max due (w.hold.getD 0),
    hold := match w.hold with | none => 0 | some h => max 0 (h - due),
    arrive := w.arrive, ens := ens, side := decidingSide s x.ctx, lane := w.lane.getD 0, stepStart := w.start,
    place := placement s i, ver := (dirAt s i).ver + (if placement s i = (dirAt s i).pl then 0 else 1) }

/-- Admits message `m`. -/
def accept (s : State) (m : Nat) (x : Msg) (p : Prog) (w : Walk) (b : Option Nat) (tdp : Time) : State :=
  sampleNow (bump (grant s m x p w b tdp) (cb x.ctx 0) 6) x.ctx 1 1 x.layout (x.instr.getD 0) 0 []

/-- ADMISSION (R61, R66, R70): a message at its decision point is admitted with its bookings, or declined with nothing
booked. -/
def admitMsg (s : State) (m : Nat) : State :=
  match msgAt s m with
  | none => s
  | some x =>
    match (ctxAt s x.ctx).image with
    | none => decline s m x 1
    | some im =>
      match layoutOf im x.layout, x.tdp with
      | some l, some tdp =>
        match admissionTests s x im l tdp with
        | .inl r => decline s m x r
        | .inr (p, w, b) => accept s m x p w b tdp
      | _, _ => decline s m x 6

/-! ### The order of a group (R583) -/

/-- A decision that may have to be taken again is kept while its group is open. One that failed a test before the ledger has
booked nothing and depends on no booking. -/
def noteTaken (s : State) (m : Nat) (opened : Time) (before : Ledger) : State :=
  match msgAt s m with
  | none => s
  | some x =>
    if x.fate = .admitted || x.fate = .declined 2 then
      { s with work := { s.work with taken := s.work.taken ++ [{ msg := m, opened := opened, before := before }] } }
    else s

/-- Counts a decision that comes out otherwise when it is taken again: one object less, another more. -/
def recount (s : State) (c : Nat) (admitted : Bool) : State :=
  let down (s : State) (i sub : Nat) : State := put s i sub (val s i sub - 1)
  if admitted then bump (down (down s (cb c 0) 7) (cb c 2) 0x28) (cb c 0) 6
  else bump (bump (down s (cb c 0) 6) (cb c 0) 7) (cb c 2) 0x28

/-- Takes a decision again on the ledger as it now stands (R583): its other tests keep their results (R70). -/
def retake (s : State) (e : TakenDecision) : State :=
  match msgAt s e.msg with
  | none => s
  | some x =>
    match (ctxAt s x.ctx).image with
    | none => s
    | some im =>
      match layoutOf im x.layout, x.tdp with
      | some l, some tdp =>
        match progOf s x.ctx l (if x.kind = .s then placement s (x.instr.getD 0) else 1) with
        | none => s
        | some p =>
          match messageBound s x im l p with
          | none => s
          | some b =>
            let before := s.work.ledger
            let was : Bool := x.fate = .admitted
            let y := { x with fate := .waiting }
            let t := match ledgerTest (setMsg s e.msg y) y l p b tdp with
              | some w => let t := grant s e.msg y p w b tdp
                          if was then t else recount t x.ctx true
              | none => let t := setMsg s e.msg { y with fate := .declined 2, deadline := none, hold := 0 }
                        if was then recount t x.ctx false else t
            noteTaken t e.msg e.opened before
      | _, _ => s

/-- Whether message `x` goes before a decision taken earlier in its group (R28, R32): the same context, the same instrument or
the same kind of program, and a lower ingress port. -/
def goesBefore (s : State) (x : Msg) (opened : Time) (e : TakenDecision) : Bool :=
  match msgAt s e.msg with
  | none => false
  | some y =>
    e.opened = opened && y.ctx = x.ctx && x.port < y.port && (y.kind = x.kind || y.instr = x.instr) && !y.accessed

/-- Admission takes the decision of a message in the order of its arbitration group (R583): the decisions of its group that it
goes before, and those taken after them, are taken again after it, unless a state access has followed one of them
(DEDUCED, notes/assumptions/44). -/
def takeDecision (s : State) (m : Nat) : State :=
  match msgAt s m with
  | none => s
  | some x =>
    let now := admNow s
    let opened := ((accessGroups s x.ctx).getLast?.map (·.opened)).getD now
    let open_ := s.work.taken.filter fun e => decide (now ≤ e.opened + tenths 3)
    let k := open_.findIdx (goesBefore s x opened)
    let later := open_.drop k
    let stands := later.any fun e => match msgAt s e.msg with | some y => y.accessed | none => true
    let keep (l : List TakenDecision) : State := { s with work := { s.work with taken := l } }
    match later with
    | e :: _ =>
      if stands then noteTaken (admitMsg (keep open_) m) m opened s.work.ledger
      else
        let t := noteTaken (admitMsg (setLedger (keep (open_.take k)) e.before) m) m opened e.before
        later.foldl retake t
    | [] => noteTaken (admitMsg (keep open_) m) m opened s.work.ledger

/-! ### The lagged step (R288–R290) -/

/-- What admission makes of a lagged event: the lane and the times booked, or none when it is refused. -/
def laggedTests (s : State) (x : Msg) (tdp : Time) : Option (Nat × Time × Time × Option Time) :=
  let c := x.ctx
  let i := x.instr.getD 0
  let pl := placement s i
  match (ctxAt s c).image, modelOf s c, laggedBound s c pl with
  | some im, some m, some (k, own0) =>
    let groups := replicaSet s c
    let ds := [8, 9] ++ groups.map (14 + ·) ++ storeDomains s pl
    if pl = 3 || (m.nlayer ≠ 0 && pl = 0) || (k ≠ .u && (boundSpeed s x.port).isNone) || (pl = 1 && s.store.relaying) then none
    else if anyClosed s ds then none
    else if pl = 2 && !windowReachable s c i then none
    else if k ≠ .u && (ds.any fun d => s.power.breach.contains d) then none
    else if k ≠ .u && (ctxAt s c).live && (ds.any fun d => s.power.liveTrip.contains d) then none
    else
      match freeLane s groups, stepTime s c m pl (dmOf s c) with
      | some lane, some own =>
        let t1 := tdp + tRx ((linkSpeed (portAt s x.port)).getD .g25) + laggedPre s c im m
        let start := max (max t1 (tabGet 0 s.work.ledger.lanes lane)) (tabGet 0 s.work.ledger.instrs i)
        let obj := laggedObject s c
        let bound := if obj / 2 ^ 28 = 2 || obj / 2 ^ 28 = 3 then obj % 2 ^ 28 else own0
        let deadline : Option Time := if k = .u then none else some (tdp + tenths bound)
        match deadline with
        | none => some (lane, start, start + own, none)
        | some d => if start + own ≤ d then some (lane, start, start + own, some d) else none
      | _, _ => none
  | _, _, _ => none

/-- Books a lagged step on its lane and instrument (R290). -/
def bookLagged (s : State) (i lane : Nat) (pub : Time) : State :=
  let l := s.work.ledger
  setLedger s { l with lanes := tabSet 0 l.lanes lane pub, instrs := tabSet 0 l.instrs i pub }

end Sys2Proof.Machine
end

