-- ==== Sys2Proof/Machine/GrateOps.lean ====
section
/-! DEFINITION. The Grate (05): header checks, the split of a payload into messages, fields, the symbol table, and what a
lane does with the bytes that have arrived. -/

namespace Sys2Proof.Machine

/-! ### Headers (R170, R171) -/

/-- A big-endian field of arrived bytes; none when it has not arrived. -/
def beArrived (bs : Bytes) (o n : Nat) : Option Nat := if o + n ≤ bs.length then some (beAt bs o n) else none

/-- What the tags of a frame are: none, one C-tag, an S-tag and a C-tag, or a shape that R170 refuses. -/
inductive Tags where
  | untagged
  | c
  | sc
  | other
  deriving DecidableEq, Repr

/-- The tags of a frame and the offset of the EtherType after the last one. -/
def frameTags (bs : Bytes) : Option (Tags × Nat) :=
  match beArrived bs 12 2 with
  | none => none
  | some 0x8100 => some (.c, 16)
  | some 0x88A8 =>
    match beArrived bs 16 2 with
    | none => none
    | some 0x8100 => some (.sc, 20)
    | some _ => some (.other, 16)
  | some _ => some (.untagged, 12)

/-- What the header checks find: bytes are missing, a check fails, or payload start, payload end and F_end. -/
inductive Header where
  | need
  | bad
  | ok (payload : Nat) (payloadEnd fEnd : Option Nat)
  deriving DecidableEq, Repr

/-- Number of tags of a shape. -/
def tagCount (t : Tags) : Nat := match t with | .untagged => 0 | .c => 1 | .sc => 2 | .other => 1

/-- The IPv4 checks of R170, orders 2 to 6, on a packet that starts at `o`. -/
def ipHeader (bs : Bytes) (o tags : Nat) : Header :=
  match beArrived bs o 1 with
  | none => .need
  | some vi =>
    let ihl := vi % 16
    if vi / 16 ≠ 4 || ihl < 5 then .bad
    else if bs.length < o + 4 * ihl then .need
    else
      let total := beAt bs (o + 2) 2
      let frag := beAt bs (o + 6) 2
      let proto := beAt bs (o + 9) 1
      let t := o + 4 * ihl
      let fEnd := some (max 64 (14 + 4 * tags + total + 4))
      if ipChecksum (slice bs o (4 * ihl)) ≠ 0 || bit frag 13 || frag % 8192 ≠ 0 then .bad
      else if proto = 17 then
        if total < 4 * ihl + 8 then .bad
        else match beArrived bs (t + 4) 2 with
          | none => .need
          | some len =>
            if len < 8 || total - 4 * ihl < len then .bad
            else .ok (t + 8) (some (t + len)) fEnd
      else if proto = 6 then
        if total < 4 * ihl + 20 then .bad
        else match beArrived bs (t + 12) 1 with
          | none => .need
          | some d =>
            let off := 4 * (d / 16)
            if off < 20 || total < 4 * ihl + off then .bad
            else .ok (t + off) (some (o + total)) fEnd
      else .bad

/-- The header checks of R170 for a layout's length source, and the payload and F_end of R171. -/
def parseHeader (bs : Bytes) (l : Layout) : Header :=
  match frameTags bs with
  | none => .need
  | some (tags, o) =>
    match beArrived bs o 2 with
    | none => .need
    | some ety =>
      if tags = .other || ((tags = .c || tags = .sc) && (ety = 0x8100 || ety = 0x88A8)) then .bad
      else if l.lsrc = 0 then
        if ety = 0x0800 then ipHeader bs (o + 2) (tagCount tags) else .bad
      else if l.lsrc = 1 then .ok (o + 2) (some (l.flen - 4)) (some l.flen)
      else .ok (o + 2) none none

/-! ### Fields (R177, R178, R181, R588) -/

/-- The field word of a field's bytes. -/
def fieldWord (f : FieldEntry) (bs : Bytes) : BitVec 64 :=
  let v := if f.be then beNat bs else leNat bs
  match f.kind with
  | 2 => BitVec.ofInt 64 (signed (8 * f.width) v)
  | 3 => if f.uns then BitVec.ofNat 64 v else BitVec.ofInt 64 (signed (8 * f.width) v)
  | 4 => BitVec.ofNat 64 (v / 2 ^ f.shift % 2 ^ f.count)
  | 5 => BitVec.ofNat 64 (leNat bs)
  | _ => BitVec.ofNat 64 v

/-- The fields of the message at `o`, those that lie wholly within its extent and before byte `limit` of the frame. -/
def extractFields (l : Layout) (bs : Bytes) (o limit : Nat) (extent : Option Nat) : List (Option (BitVec 64)) :=
  l.fields.map fun f =>
    let inside := match extent with | none => true | some e => decide (f.off + f.width ≤ e)
    if inside && decide (o + f.off + f.width ≤ limit) then some (fieldWord f (slice bs (o + f.off) f.width)) else none

/-! ### The symbol table (R183–R185) -/

/-- CRC of a key: the context number and the symbol bytes. -/
def symbolHash (c : Nat) (sym : BitVec 64) : Nat := crc32c (BitVec.ofNat 8 c :: toLe 8 sym.toNat)

/-- The slot of a key in way 0 or 1, as its number in the table. -/
def symbolSlot (c : Nat) (sym : BitVec 64) (way : Nat) : Nat :=
  if way = 0 then symbolHash c sym % 8192 else 8192 + symbolHash c sym / 8192 % 8192

/-- A slot of the symbol table. -/
def symbolAt (s : State) (k : Nat) : Option (Nat × BitVec 64 × Nat) := tabGet none s.work.symbols k

/-- Writes a slot of the symbol table. -/
def setSymbol (s : State) (k : Nat) (v : Option (Nat × BitVec 64 × Nat)) : State :=
  { s with work := { s.work with symbols := tabSet none s.work.symbols k v } }

/-- The slot that holds a key. -/
def symbolFind (s : State) (c : Nat) (sym : BitVec 64) : Option (Nat × Nat) :=
  [0, 1].findSome? fun w =>
    let k := symbolSlot c sym w
    match symbolAt s k with
    | some (c', sym', i) => if c' = c && sym' = sym then some (k, i) else none
    | none => none

/-- The instrument index that a lookup gives. -/
def symbolLookup (s : State) (c : Nat) (sym : BitVec 64) : Option Nat := (symbolFind s c sym).map (·.2)

/-! ### Messages -/

/-- A message as its lane finds it. -/
def newMsg (f : Nat) (x : Frame) (c : Nat) (tag : BitVec 14) (k : Nat) (l : Layout) (o len : Nat) : Msg :=
  { frame := f, port := x.port, ctx := c, tag := tag, layout := k, moff := o, mlen := len,
    kind := (match l.pkind with | 2 => .s | 3 => .h | _ => .t), pindex := l.pindex, fields := [], symbol := none,
    looked := false, instr := none, tdp := none, dpStamps := [], ndp := 0, fate := .waiting, klass := .a, ens := 0, side := .running, deadline := none,
    hold := 0, tEnd := none, arrive := 0, bound := 0, accessed := false, seq := none, issued := false, slot := Slot.reset, row := [],
    event := [], features := [], riskRef := none, awaitStep := false, lane := 0, stepStart := 0, place := 0, ver := 0,
    pass := 0, width := 0, sums := [], flags := 0, record := none, entered := false, delivered := false }

/-- What stands at a lane's next message offset. -/
inductive LaneHead where
  | done
  | wait
  | malformed
  /-- malformed, and the frame's end has shown that the message runs past the payload (R174, R187) -/
  | ranPast
  | skip (extent : Nat)
  | message (k : Nat) (l : Layout) (extent : Option Nat)
  deriving DecidableEq, Repr

/-- A layout of an image for a filter index and a type byte (R175). -/
def layoutFor (im : Image) (idx : Nat) (ty : Byte) : Option (Nat × Layout) :=
  im.layouts.find? fun x => x.2.valid && x.2.filter = idx && x.2.type = ty

/-- The layouts of an image that name a filter index agree in their header rules; one of them. -/
def layoutRules (im : Image) (idx : Nat) : Option Layout := (im.layouts.find? fun x => x.2.valid && x.2.filter = idx).map (·.2)

/-- The message at a lane's next offset by its type byte (R174, R175). `limit` bytes of the frame may be read. One that selects
no layout is stepped over where `within` says that it is known not to run past the payload. -/
def typedHead (im : Image) (idx : Nat) (l : Layout) (bs : Bytes) (o limit : Nat) (final within : Bool)
    (extent : Option Nat) : LaneHead :=
  let short := match extent with | none => false | some e => decide (e ≤ l.typeOff)
  let skip : LaneHead := if within then .skip (extent.getD 0) else .wait
  if short then skip
  else if limit ≤ o + l.typeOff then (if final then skip else .wait)
  else match layoutFor im idx (byteAt bs (o + l.typeOff)) with
    | some (k, m) => .message k m extent
    | none => skip

/-- What stands at a lane's next offset (R173, R174). `final` says that the frame has ended for the lane, and `stop` where its
payload ends, as far as that is known. Under LSRC 2 that is at the frame's end: until then nothing is malformed or unmatched on
bytes that may prove to be the FCS, and a message that then proves to run past the payload is malformed unless it has been,
or is now, decided (R588). -/
def laneHead (im : Image) (idx : Nat) (l : Layout) (ln : Lane) (bs : Bytes) (limit : Nat) (final : Bool) (stop : Option Nat) :
    LaneHead :=
  let o := ln.next
  let sure := if l.lsrc ≠ 2 || stop.isSome then limit else limit - 4
  let beyond (n : Nat) : Bool := match stop with | some e => decide (e < n) | none => false
  if beyond (o + 1) then .done
  else if l.lpsize = 0 then
    if o ≠ ln.first then .done
    else typedHead im idx l bs o limit final (stop.isSome || final)
      (match stop with | some e => some (e - o) | none => if final then some (limit - o) else none)
  else if beyond (o + l.lpsize) then .malformed
  else if limit < o + l.lpsize then .wait
  else
    let v := if l.lpbe then beAt bs o l.lpsize else leAt bs o l.lpsize
    let e := if l.lpinc then v else l.lpsize + v
    if e < l.lpsize then (if final || o + l.lpsize ≤ sure then .malformed else .wait)
    else if beyond (o + e) then
      if l.lsrc ≠ 2 then .malformed
      else match typedHead im idx l bs o limit final true (some e) with
        | .message k m x => .message k m x
        | _ => .ranPast
    else typedHead im idx l bs o limit final (l.lsrc ≠ 2 || stop.isSome || decide (o + e ≤ sure)) (some e)

/-! ### The lane -/

/-- The context that a frame is steered to for cut-through, with the deciding index. -/
def frameCtx (x : Frame) : Option (Nat × Nat) :=
  match x.steer with
  | some (some idx, .context c _) => if x.whole then none else some (c, idx)
  | _ => none

/-- Bytes of a frame that its messages may use: all that have arrived, and once the frame has ended normally those before
its FCS (R588). -/
def frameLimit (x : Frame) : Nat :=
  match x.ended, x.cut with
  | some n, none => n - 4
  | _, _ => x.bytes.length

/-- Whether a frame has ended for its lane. -/
def frameFinal (x : Frame) : Bool := x.ended.isSome || x.cut.isSome

/-- Where the payload of a frame ends whose length source does not say so (R171): before the FCS of a frame that has ended, and
with the bytes that arrived of an aborted one (R588). The end of a frame cut at L_max is known once its reception ends. -/
def frameStop (x : Frame) : Option Nat :=
  match x.cut with
  | some .oversize => x.ended.map (· - 4)
  | some _ => some x.bytes.length
  | none => x.ended.map (· - 4)

/-- What stands at the next offset of a frame's lane. -/
def frameHead (im : Image) (idx : Nat) (l : Layout) (x : Frame) (ln : Lane) : LaneHead :=
  laneHead im idx l ln x.bytes (frameLimit x) (frameFinal x) (ln.payloadEnd.or (frameStop x))

/-- A lane that goes on to the message that starts `e` bytes later. -/
def nextMessage (ln : Lane) (e : Nat) : Lane :=
  let n := ln.next + max 1 e
  { ln with next := n, open_ := none, arrived := ln.arrived.filter fun a => decide (n < a.bytes) }

/-- Sets the lane of a frame. -/
def setLane (s : State) (f : Nat) (x : Frame) (ln : Lane) : State := setFrame s f { x with lane := some ln }

/-- Counts a frame once in Length mismatches: its replies' verdict is BAD (R187). -/
def mismatchFrame (s : State) (f : Nat) : State :=
  match frameAt s f with
  | none => s
  | some x =>
    match frameCtx x with
    | none => s
    | some (c, _) => if x.mismatch then s else bump (setFrame s f { x with mismatch := true }) (cb c 2) 0x0E

/-- Parsing of a frame stops; it counts once in Malformed frames (R174). -/
def malformFrame (s : State) (f c : Nat) : State :=
  match frameAt s f with
  | none => s
  | some x =>
    let s := setFrame s f { x with malformed := true, lane := x.lane.map fun ln => { ln with stopped := true } }
    if x.malformed then s else bump s (cb c 2) 0x0C

/-- The header checks, as soon as the bytes they read have arrived (R170). -/
def laneHeader (s : State) (f : Nat) : State :=
  match frameAt s f with
  | none => s
  | some x =>
    match frameCtx x with
    | none => s
    | some (c, idx) =>
      match ((ctxAt s c).image).bind fun im => layoutRules im idx with
      | none => s
      | some l =>
        if x.lane.isSome || x.headerError then s
        else match parseHeader x.bytes l with
          | .ok p e fe =>
            setLane s f x { first := p + l.pskip, payloadEnd := e, fEnd := fe, next := p + l.pskip, open_ := none, stopped := false,
                            arrived := [] }
          | .need => if frameFinal x then bump (setFrame s f { x with headerError := true }) (cb c 2) 0x0D else s
          | .bad => bump (setFrame s f { x with headerError := true }) (cb c 2) 0x0D

/-- Steps over messages that select no layout, which take no lookup and no decision (R182), and stops the frame at one that is
malformed (R174). -/
def laneSkip (n : Nat) (s : State) (f : Nat) : State :=
  match n with
  | 0 => s
  | n + 1 =>
    match frameAt s f with
    | none => s
    | some x =>
      match frameCtx x, x.lane with
      | some (c, idx), some ln =>
        match (ctxAt s c).image with
        | none => s
        | some im =>
          match layoutRules im idx with
          | none => s
          | some l =>
            if ln.stopped || ln.open_.isSome then s
            else match frameHead im idx l x ln with
              | .malformed => malformFrame s f c
              | .ranPast => mismatchFrame (malformFrame s f c) f
              | .skip e => laneSkip n (bump (setLane s f x (nextMessage ln e)) (cb c 2) 0x0B) f
              | _ => s
      | _, _ => s

/-- A message of the lane: frame, context, filter index, image, layout number, layout, lane and extent. -/
structure AtHead where
  frame : Frame
  ctx : Nat
  im : Image
  k : Nat
  layout : Layout
  lane : Lane
  extent : Option Nat
  deriving DecidableEq, Repr

/-- The matched message at which a frame's lane stands. -/
def laneMessage (s : State) (f : Nat) : Option AtHead :=
  match frameAt s f with
  | none => none
  | some x =>
    match frameCtx x, x.lane with
    | some (c, idx), some ln =>
      match (ctxAt s c).image with
      | none => none
      | some im =>
        match layoutRules im idx with
        | none => none
        | some l =>
          if ln.stopped then none
          else match frameHead im idx l x ln with
            | .message k m e => some { frame := x, ctx := c, im := im, k := k, layout := m, lane := ln, extent := e }
            | _ => none
    | _, _ => none

/-- Opens the message at the lane's head: it counts in Messages parsed. -/
def openMessage (s : State) (f : Nat) (h : AtHead) : Nat × State :=
  match h.lane.open_ with
  | some m => (m, s)
  | none =>
    let m := s.work.nextMsg
    let x := newMsg f h.frame h.ctx (ctxTag s h.ctx) h.k h.layout h.lane.next (h.extent.getD 0)
    let s := { s with work := { s.work with nextMsg := m + 1 } }
    let s := setFrame (setMsg s m x) f
      { h.frame with messages := h.frame.messages ++ [m], lane := some { h.lane with open_ := some m } }
    (m, bump s (cb h.ctx 2) 9)

/-- The lane leaves the message at its head; the next starts where it ends. A message without a known extent is the
frame's last. -/
def closeMessage (s : State) (f : Nat) (h : AtHead) : State :=
  match frameAt s f with
  | none => s
  | some x =>
    match x.lane with
    | none => s
    | some ln =>
      match h.extent with
      | some e => setLane s f x (nextMessage ln e)
      | none => setLane s f x { ln with open_ := none, stopped := true }

/-- Bytes of a frame that have arrived give the fields of its messages that have not made their state access yet. -/
def refreshFields (s : State) (f : Nat) : State :=
  match frameAt s f with
  | none => s
  | some x =>
    x.messages.foldl (fun s m =>
      match msgAt s m with
      | none => s
      | some y =>
        if y.accessed then s
        else match ((ctxAt s y.ctx).image).bind fun im => layoutOf im y.layout with
          | none => s
          | some l =>
            let e := if y.mlen = 0 then none else some y.mlen
            setMsg s m { y with fields := extractFields l x.bytes y.moff (frameLimit x) e }) s

/-- The symbol of a message, where its field is present. -/
def messageSymbol (h : AtHead) : Option (BitVec 64) :=
  (extractFields h.layout h.frame.bytes h.lane.next (frameLimit h.frame) h.extent).getD h.layout.symf none

/-- A symbol miss: no admission, no update, no event; the message counts in Symbol misses (R184). -/
def missMessage (s : State) (m : Nat) : State :=
  match msgAt s m with
  | none => s
  | some x =>
    let s := sampleNow s x.ctx 1 3 x.layout 0 0 (messageWords x)
    progress (bump (setMsg s m { x with fate := .miss }) (cb x.ctx 2) 0x0A) x.ctx 1

/-- The arrival of a frame's byte `n`, where only a later TYPE byte said what it was (R180, R184). -/
def arrivalAt (h : AtHead) (n : Nat) : Option Arrival := h.lane.arrived.find? fun a => a.bytes = n

/-- What the lookup of a symbol finds (R184): in the table as it stood when the symbol's last byte arrived. -/
def lookedUp (s : State) (h : AtHead) (sym : BitVec 64) : Option Nat :=
  match arrivalAt h (h.lane.next + symbolEnd h.layout) with
  | some a => a.instr
  | none => symbolLookup s h.ctx sym

/-- The lookup of a message's symbol (R184). A symbol outside the message's extent takes none (R182). -/
def lookupMessage (s : State) (m : Nat) (h : AtHead) : State :=
  match msgAt s m with
  | none => s
  | some x =>
    if x.looked then s
    else setMsg s m { x with looked := true, symbol := messageSymbol h, instr := (messageSymbol h).bind (lookedUp s h) }

/-- Bytes of a message that have arrived at its decision point: its decision offset, or its extent where that is less (R180,
R181). -/
def decisionByte (h : AtHead) : Nat :=
  match h.extent with | none => decisionOffset h.layout | some e => min (decisionOffset h.layout) e

/-- Bytes of a message that have to arrive before it is decided: those of its decision point, and its TYPE byte, without which
its layout is not known (DEDUCED, notes/assumptions/20). -/
def decideAt (h : AtHead) : Nat := max (decisionByte h) (h.layout.typeOff + 1)

/-- The decision point of a message: the bytes of its frame received, and its ingress times on the four bases (R147, R148, R180).
It is the arrival of the deciding byte, even where the TYPE byte comes later. -/
def decisionArrival (s : State) (h : AtHead) : Nat × List Time :=
  match arrivalAt h (h.lane.next + decisionByte h) with
  | some a => (a.bytes, a.times)
  | none => (h.frame.bytes.length, (List.range 4).map (ingressTime s h.frame.port))

/-- Predicted arrival of the last FCS bit (R191), `n` bytes having arrived at t_dp. None under LSRC 2, which gives no F_end:
R191 and R65 state no T_hold then, and the model takes none, so that the deadline is t_dp + B_pub and the hold delay 0
(DESIGN CHOICE, notes/assumptions/44). -/
def predictedEnd (h : AtHead) (n : Nat) (tdp : Time) (v : Speed) : Option Time :=
  h.lane.fEnd.map fun e => tdp + ((e : Int) - (n : Int)) * byteTime v

/-- A message is decided at this instant (R61, R180, R181, R588): a message whose symbol is absent or misses goes no
further (R182, R184); any other is admitted or declined in the order of its arbitration group, and its state access is due
(R583). -/
def decideMessage (s : State) (f : Nat) (h : AtHead) : State :=
  let (m, s) := openMessage s f h
  let sym := messageSymbol h
  let s := lookupMessage s m h
  let s := refreshFields s f
  let s := match msgAt s m with
    | none => s
    | some x =>
      if sym.isNone || x.instr.isNone then missMessage (setMsg s m { x with instr := none }) m
      else
        let dp := decisionArrival s h
        let tdp := dp.2.getD (admBase s) 0
        let tEnd := predictedEnd h dp.1 tdp (((linkSpeed (portAt s x.port))).getD .g25)
        let s := setMsg s m { x with tdp := some tdp, ndp := (stampOf tdp).1, tEnd := tEnd, dpStamps := dp.2 }
        takeDecision (setAccess s x.ctx (joinGroup (accessGroups s x.ctx) (admNow s) m)) m
  closeMessage s f h

/-- Decides every message that a frame's end leaves undecided (R588), and steps over the rest. -/
def laneFinish (n : Nat) (s : State) (f : Nat) : State :=
  match n with
  | 0 => s
  | n + 1 =>
    let s := laneSkip (n + 1) s f
    match laneMessage s f with
    | none => s
    | some h => laneFinish n (decideMessage s f h) f

/-- Bytes past F_end: the frame's length does not match (R187). -/
def lanePast (s : State) (f : Nat) : State :=
  match frameAt s f with
  | none => s
  | some x =>
    match x.lane.bind (·.fEnd) with
    | none => s
    | some e => if e < x.bytes.length then mismatchFrame s f else s

/-- What a lane does with the bytes that have arrived, short of the lookups and decisions that have commands of their
own. -/
def laneRun (s : State) (f : Nat) : State :=
  match frameAt s f with
  | none => s
  | some x => lanePast (laneSkip (x.bytes.length + 1) (laneHeader (refreshFields s f) f) f) f

/-- The bytes that have arrived end where the lane's next message may have its symbol or its decision point, and its TYPE byte is
still to come: the arrival is kept (R180, R184). -/
def noteArrival (s : State) (f : Nat) : State :=
  match frameAt s f with
  | none => s
  | some x =>
    match frameCtx x, x.lane with
    | some (c, _), some ln =>
      let n := x.bytes.length
      if ln.stopped || n ≤ ln.next || ln.arrived.any (fun a => a.bytes = n) then s
      else
        let sym := BitVec.ofNat 64 (leNat (slice x.bytes (n - 8) 8))
        setLane s f x { ln with arrived := ln.arrived ++ [{
          bytes := n, times := (List.range 4).map (ingressTime s x.port),
          instr := if n < ln.next + 8 then none else symbolLookup s c sym }] }
    | _, _ => s

/-- Messages whose extent runs to the payload's end take their length at the frame's end. -/
def settleLengths (s : State) (x : Frame) : State :=
  x.messages.foldl (fun s m =>
    match msgAt s m with
    | none => s
    | some y => if y.mlen = 0 then setMsg s m { y with mlen := frameLimit x - y.moff } else s) s

/-- The comparison of a frame of `n` bytes in all with what its lane expected (R174, R187): with F_end, or under LSRC 2 with the
end of its last message. -/
def compareLength (s : State) (f n : Nat) : State :=
  match frameAt s f with
  | none => s
  | some x =>
    match frameCtx x, x.lane with
    | some (c, _), some ln =>
      match ln.fEnd with
      | some e => if n ≠ e then mismatchFrame s f else s
      | none =>
        if ln.first < ln.next && (match frameStop x with | some e => decide (e < ln.next) | none => false) then
          mismatchFrame (malformFrame s f c) f
        else s
    | _, _ => s

/-- The end of a frame's reception at its lane: undecided messages are decided, and the frame's length is compared
(R174, R187, R588). A frame that the MAC has cut at L_max has shown only that it is longer than what arrived. -/
def laneEnd (s : State) (f : Nat) : State :=
  match frameAt s f with
  | none => s
  | some x =>
    let s := laneFinish (x.bytes.length + 1) (laneRun s f) f
    match frameAt s f with
    | none => s
    | some y =>
      let s := settleLengths s y
      if y.cut = some .oversize then
        match y.lane.bind (·.fEnd) with
        | some e => if e ≤ y.bytes.length then mismatchFrame s f else s
        | none => s
      else compareLength s f y.bytes.length

end Sys2Proof.Machine
end

