-- ==== Sys2Proof/Machine/Frames.lean ====
section
/-! DEFINITION. Receiving frames (03, 05): address filter, filter table, the frame's arrival and end, its verdicts, and the
symbol lookups and decision points of its messages. -/

namespace Sys2Proof.Machine

/-! ### The filter table (R92–R95) -/

/-- The conjunction of conditions of which some may still be open: false if one is false, open if one is. -/
def allKnown (l : List (Option Bool)) : Option Bool :=
  if l.contains (some false) then some false else if l.contains none then none else some true

/-- A condition on bytes: open until they arrive, false where the frame ended before them. -/
def onBytes (ended : Bool) (v : Option Nat) (p : Nat → Bool) : Option Bool :=
  match v with
  | some n => some (p n)
  | none => if ended then some false else none

/-- Whether a valid entry matches the bytes that have arrived (R94). -/
def entryMatches (e : BitVec 256) (bs : Bytes) (ended : Bool) : Option Bool :=
  let w1 := filterWord e 1
  let w2 := filterWord e 2
  let w5 := filterWord e 5
  let w6 := filterWord e 6
  let vmode := bits w1 31 30
  let l4 := bits w1 25 24
  let tags := frameTags bs
  let shape (t : Tags) : Option Bool :=
    match tags with
    | some x => some (x.1 == t)
    | none => if ended then some false else none
  let ety := tags.bind fun x => beArrived bs x.2 2
  let ip := tags.map fun x => x.2 + 2
  let ipv4 := bit w1 26 || l4 ≠ 0
  let vi := ip.bind fun o => beArrived bs o 1
  let ihl := 4 * (vi.getD 0 % 16)
  let at_ (o n : Nat) : Option Nat := ip.bind fun b => beArrived bs (b + o) n
  allKnown (
    (match vmode with | 1 => [shape .untagged] | 2 => [shape .c] | 3 => [shape .sc] | _ => [])
    ++ (if bit w1 29 then [onBytes ended (beArrived bs 14 2) fun v => v % 4096 = bits w2 27 16] else [])
    ++ (if bit w1 28 then [onBytes ended (beArrived bs 18 2) fun v => v % 4096 = bits w2 11 0] else [])
    ++ (if bit w1 27 then [onBytes ended ety fun v => v = bits (filterWord e 3) 15 0] else [])
    ++ (if ipv4 then
        [onBytes ended ety fun v => v = 0x0800, onBytes ended vi fun v => v / 16 = 4 && 5 ≤ v % 16]
      else [])
    ++ (if bit w1 26 then
        [onBytes ended (at_ 16 4) fun v => v / 2 ^ (32 - bits w5 5 0) = filterWord e 4 / 2 ^ (32 - bits w5 5 0)]
      else [])
    ++ (if l4 ≠ 0 then
        [onBytes ended (at_ 9 1) fun v => (v = 17 && bit l4 0) || (v = 6 && bit l4 1),
         onBytes ended (at_ 6 2) fun v => !bit v 13 && v % 8192 = 0,
         (if vi.isNone then (if ended then some false else none)
          else onBytes ended (at_ (ihl + 2) 2) fun v => bits w6 31 16 ≤ v && v ≤ bits w6 15 0)]
      else []))

/-- The lowest-indexed valid entry that matches; none while an entry before it is open (R95, R97). -/
def decidingEntry (t : Tab (BitVec 256)) (bs : Bytes) (ended : Bool) : Option (Option (Nat × BitVec 256)) :=
  match t with
  | [] => some none
  | (k, e) :: t =>
    if !bit (filterWord e 0) 31 then decidingEntry t bs ended
    else match entryMatches e bs ended with
      | some true => some (some (k, e))
      | some false => decidingEntry t bs ended
      | none => none

/-- What an entry does with its frames (R92). -/
def entrySteer (e : BitVec 256) : Steer :=
  let w0 := filterWord e 0
  match bits w0 28 27 with
  | 0 => .context (bits w0 23 18) (if bit w0 26 then some (bits w0 15 8) else none)
  | 1 => .ring (bits w0 15 8)
  | _ => .drop

/-- The default action of a frame's port as it stood when the frame started (0x2100+p:06, R125). -/
def defaultSteer (x : Frame) : Steer := if bits x.dflt 9 8 = 1 then .ring (x.dflt % 256) else .drop

/-- Whether the Grate, feature stage or Chimney domain is retired or held Cold by a thermal shutdown (R493). -/
def corePathLost (s : State) : Bool := [8, 9, 32].any fun d => (domAt s d).retired || (domAt s d).thermal

/-- A frame steered to a context: delivered whole with reason 7 where the core path is lost (R493), and Unmatched where no
layout names the index (R169). -/
def steerContext (s : State) (f c idx : Nat) : State :=
  match frameAt s f with
  | none => s
  | some x =>
    if corePathLost s then
      bump (bump (setFrame s f { x with whole := true }) (cb c 0) 7) (cb c 2) 0x2D
    else match (ctxAt s c).image with
      | none => s
      | some im => if (layoutRules im idx).isSome then s else bump s (cb c 2) 0x0B

/-- The filter result of a frame (R94–R96), where what has arrived decides it. MAC control frames are counted and
discarded (R81); one that fails the address filter counts in Rx address drops only, and never comes here (DESIGN CHOICE: R81
and R87 both claim it, notes/assumptions/46). -/
def steerFrame (s : State) (f : Nat) : State :=
  match frameAt s f with
  | none => s
  | some x =>
    let final := frameFinal x
    if x.steer.isSome || !x.addressed || (!final && x.bytes.length < 14) then s
    else if beArrived x.bytes 12 2 = some 0x8808 then bump (setFrame s f { x with steer := some (none, .drop) }) (0x2110 + x.port) 0x0C
    else match decidingEntry x.table x.bytes final with
      | none => s
      | some none =>
        let act := defaultSteer x
        let s := setFrame s f { x with steer := some (none, act) }
        if act = .drop then bump s (0x2110 + x.port) 0x0B else s
      | some (some (k, e)) =>
        let act := entrySteer e
        let p := portAt s x.port
        let s := setPort s x.port { p with hits := tabSet 0 p.hits k (tabGet 0 p.hits k + 1) }
        let s := setFrame s f { x with steer := some (some k, act) }
        match act with
        | .drop => bump s (0x2110 + x.port) 0x0B
        | .context c _ => steerContext s f c k
        | .ring _ => s

/-! ### Arrival -/

/-- Whether a destination address passes the address filter (R87). -/
def addressPasses (s : State) (p : Nat) (dest : BitVec 48) : Bool :=
  let i := 0x2100 + p
  dest.toNat = val s i 3 || dest = 0xFFFFFFFFFFFF
    || (bit dest.toNat 40 && bit (val s i 4) 0) || bit (val s i 4) 1

/-- RX_FRAME_START (R87, R98, R147): a frame's first destination byte arrives. Its ingress stamps are taken, the filter
table is fixed for it, and a frame that fails the address filter is counted and goes no further. An express frame may
interrupt a preemptable one (R91). -/
def execRxFrameStart (p : BitVec 3) (dest : BitVec 48) (express : Bool) (s : State) : Host.Outcome State Fault Refusal :=
  let p := p.toNat
  let x := portAt s p
  .next (
    if !linkUp x || (x.rx.isSome && !(express && x.held.isNone && val s (0x2110 + p) 3 = 2)) then s
    else
      let f := s.net.nextFrame
      let pass := addressPasses s p dest
      let frame : Frame :=
        { port := p, express := express, bytes := [], stamps := ingressStamps s p, table := x.filters,
          addressed := pass, lmax := lmax s p, dflt := val s (0x2100 + p) 6, steer := none, lane := none, headerError := false, ended := none, cut := none,
          codeError := false, mac := none, eff := none, messages := [], updates := 0, logged := false, whole := false,
          mismatch := false, malformed := false, lost := false, due := [] }
      let s := setFrame { s with net := { s.net with nextFrame := f + 1 } } f frame
      let s := setPort s p { x with rx := some f, held := if x.rx.isSome then x.rx else x.held }
      if pass then s else bump s (0x2110 + p) 0x0A)

/-- Whether a frame holds space in its port's staging buffer: it is still arriving, or a chain of it waits (R90, R587). -/
def holdsSpace (s : State) (f : Nat) (x : Frame) : Bool :=
  x.ended.isNone || s.net.rings.any fun r => r.2.chains.any fun c => c.frame = f

/-- The staging buffer of a port (R90). -/
def stagingSize : Nat := 9600

/-- Bytes of frame `f` that the space left by the port's earlier frames cannot keep: chains of it that wait behind another
are lost, and those that become due later (R587). -/
def stage (s : State) (f : Nat) (x : Frame) : State :=
  let held := (s.net.frames.map fun g =>
    match g.2 with
    | some y => if g.1 < f && y.port = x.port && holdsSpace s g.1 y then y.bytes.length else 0
    | none => 0).sum
  if held + x.bytes.length ≤ stagingSize then s
  else
    let rings := s.net.rings.map fun r =>
      (r.1, { r.2 with chains := r.2.chains.take 1
        ++ (r.2.chains.drop 1).map fun c => if c.frame = f then { c with lost := true } else c })
    setFrame { s with net := { s.net with rings := rings } } f { x with lost := true }

/-- Bytes of the frame in reception on port `p` arrive: those that arrived before, and more. None where no frame is in
reception, where the MAC has cut it, or where the bytes are not a continuation of it. -/
def arrive (s : State) (p : Nat) (bs : Bytes) : Option (Nat × State) :=
  match (portAt s p).rx with
  | none => none
  | some f =>
    match frameAt s f with
    | none => none
    | some x =>
      if x.cut.isSome || bs.take x.bytes.length ≠ x.bytes || x.lmax < bs.length then none
      else
        let x := { x with bytes := bs }
        some (f, stage (setFrame s f x) f x)

/-- FILTER_DECIDED (R95–R97, R169): the frame is steered, and its lane takes what has arrived. -/
def execFilterDecided (p : BitVec 3) (bytes : Bytes) (s : State) : Host.Outcome State Fault Refusal :=
  .next (
    match arrive s p.toNat bytes with
    | none => s
    | some (f, t) => laneRun (steerFrame t f) f)

/-- Whether a lookup of the message at a lane's head starts now: its symbol's last byte has just arrived (R184). -/
def lookupNow (h : AtHead) : Bool :=
  let inside := match h.extent with | none => true | some e => decide (symbolEnd h.layout ≤ e)
  inside && decide (h.frame.bytes.length = h.lane.next + symbolEnd h.layout)

/-- SYMBOL_LOOKUP (R183, R184): the symbol's last byte arrives and both ways are read. Where the TYPE byte is still to come, what
they give is kept until it is known which message this is. -/
def execSymbolLookup (p : BitVec 3) (bytes : Bytes) (s : State) : Host.Outcome State Fault Refusal :=
  .next (
    match arrive s p.toNat bytes with
    | none => s
    | some (f, t) =>
      let t := laneRun t f
      match laneMessage t f with
      | none => noteArrival t f
      | some h =>
        if !lookupNow h then t
        else
          let (m, t) := openMessage t f h
          let t := lookupMessage t m h
          match msgAt t m with
          | none => t
          | some x => if x.instr.isNone then closeMessage (missMessage t m) f h else t)

/-- DECISION_POINT (R61, R180, R184): the last bit of a message's decision offset arrives. Where the TYPE byte is still to come, the
arrival is kept, and the message is decided with it when that byte arrives (notes/assumptions/20). -/
def execDecisionPoint (p : BitVec 3) (bytes : Bytes) (s : State) : Host.Outcome State Fault Refusal :=
  .next (
    match arrive s p.toNat bytes with
    | none => s
    | some (f, t) =>
      let t := laneRun t f
      match laneMessage t f with
      | none => noteArrival t f
      | some h =>
        if h.frame.bytes.length = h.lane.next + decideAt h then laneRun (decideMessage t f h) f else t)

/-! ### The end of a frame (R85, R89, R588) -/

/-- Reception of the frame on a port ends; an interrupted preemptable frame goes on (R91). -/
def freeRx (s : State) (p : Nat) : State :=
  let x := portAt s p
  setPort s p { x with rx := x.held, held := none }

/-- A frame's reception has ended at its lane: the filter result is known (R94), and its messages are decided. -/
def endFrame (s : State) (f : Nat) : State := logBadFrame (laneEnd (steerFrame s f) f) f

/-- The reception of a cut frame ends with `n` bytes in all, and its length is compared (R174, R187). -/
def endCutFrame (s : State) (p f : Nat) (x : Frame) (n : Nat) : State :=
  let s := setFrame (freeRx s p) f { x with ended := some n }
  logBadFrame (compareLength (laneSkip (x.bytes.length + 1) s f) f n) f

/-- Whether the fragments of a received frame are in error: a frame that is not preemptable has none, none come while preemption
is not active, and each before the last is at least 64 · (1 + addFragSize) bytes (R91, R121). -/
def fragmentError (s : State) (p : Nat) (x : Frame) (fs : List Nat) : Bool :=
  !fs.isEmpty && (x.express || !preemptActive s p || fs.any fun n => decide (n < 64 * (1 + (portAt s p).frag)))

/-- RS-FEC codewords corrected and not correctable are counted while the link runs RS-FEC (R126). -/
def countFec (s : State) (p : Nat) (tail : RxTail) : State :=
  if (portAt s p).fec then
    bumpBy 64 (bumpBy 64 s (0x2110 + p) 0x15 tail.corrected) (0x2110 + p) 0x16 tail.uncorrected
  else s

/-- RX_FRAME_END (R85, R91, R126, R588): the last FCS bit arrives. After a cut it only ends the reception. -/
def execRxFrameEnd (p : BitVec 3) (bytes : Bytes) (tail : RxTail) (s : State) : Host.Outcome State Fault Refusal :=
  let p := p.toNat
  let s := countFec s p tail
  .next (
    match (portAt s p).rx with
    | none => s
    | some f =>
      match frameAt s f with
      | none => freeRx s p
      | some x =>
        if x.cut.isSome then endCutFrame s p f x bytes.length
        else
          match arrive s p bytes with
          | none => s
          | some (_, t) =>
            match frameAt t f with
            | none => t
            | some y =>
              freeRx (endFrame (setFrame t f { y with
                ended := some bytes.length, codeError := tail.codeError || fragmentError s p y tail.fragments }) f) p)

/-- L_max of the frame in reception on a port (R125); that of the port where there is none. -/
def rxLmax (s : State) (p : Nat) : Nat :=
  match (portAt s p).rx.bind (frameAt s) with
  | some x => x.lmax
  | none => lmax s p

/-- RX_OVERSIZE (R89): byte L_max + 1 arrives; the frame is cut at L_max. -/
def execRxOversize (p : BitVec 3) (bytes : Bytes) (s : State) : Host.Outcome State Fault Refusal :=
  let p := p.toNat
  let most := rxLmax s p
  .next (
    match arrive s p (bytes.take most) with
    | none => s
    | some (f, t) =>
      match frameAt t f with
      | none => t
      | some x =>
        if bytes.length = most + 1 then endFrame (setFrame t f { x with cut := some .oversize }) f else s)

/-- RX_ABORT (R85, R104): the link is lost during a frame, which ends with what has arrived; a frame that the MAC has cut
keeps its cause. -/
def execRxAbort (p : BitVec 3) (bytes : Bytes) (s : State) : Host.Outcome State Fault Refusal :=
  let p := p.toNat
  .next (
    match (portAt s p).rx with
    | none => s
    | some f =>
      match frameAt s f with
      | none => freeRx s p
      | some x =>
        if x.cut.isSome then endCutFrame s p f x bytes.length
        else
          match arrive s p bytes with
          | none => s
          | some (_, t) =>
            match frameAt t f with
            | none => t
            | some y =>
              freeRx (endFrame (setFrame t f { y with ended := some bytes.length, cut := some .abort }) f) p)

/-! ### Verdicts (R85, R86, R187) -/

/-- The cause of a frame's BAD verdict: the first of OVERSIZE, ABORT, RUNT, CODE and FCS that holds; none for GOOD. -/
def badCause (x : Frame) : Option BadCause :=
  match x.cut with
  | some .oversize => some .oversize
  | some _ => some .abort
  | none =>
    let n := x.bytes.length
    if n < 64 then some .runt
    else if x.codeError then some .code
    else if leAt x.bytes (n - 4) 4 ≠ fcs32 (x.bytes.take (n - 4)) then some .fcs
    else none

/-- The counter of a BAD cause (R126). -/
def causeCounter (c : BadCause) : Nat := match c with | .fcs => 6 | .runt => 7 | .oversize => 8 | .code => 9 | .abort => 9

/-- MAC_VERDICT (R85, R86): the verdict of a frame that has ended or been cut reaches Grate and Chimney, and counts. -/
def execMacVerdict (frame : Nat) (s : State) : Host.Outcome State Fault Refusal :=
  .next (
    match frameAt s frame with
    | none => s
    | some x =>
      if x.mac.isSome || !frameFinal x then s
      else match badCause x with
        | none =>
          let s := setFrame s frame { x with mac := some .good }
          bumpBy 64 (bump s (0x2110 + x.port) 4) (0x2110 + x.port) 5 x.bytes.length
        | some c => bump (setFrame s frame { x with mac := some (.bad c) }) (0x2110 + x.port) (causeCounter c))

/-- A BAD effective verdict meets the replies of a frame that have not been released: each is suppressed (R189, R190). -/
def suppressBad (s : State) (f : Nat) : State :=
  s.chim.replies.foldl (fun s x =>
    match replyAt s x.1 with
    | none => s
    | some r =>
      if r.frame = f && (r.state = .waiting || r.state = .queued) then suppressIn s x.1 r (cb r.ctx 2) 0x0F else s) s

/-- The messages of a bad frame that have made their updates count in Bad-frame updates (R193). -/
def countBadUpdates (s : State) (x : Frame) : State :=
  match frameCtx x with
  | none => s
  | some (c, _) => bumpBy 64 s (cb c 2) 0x12 x.updates

/-- EFFECTIVE_VERDICT (R187, R189, R190, R193): BAD with the MAC's BAD or the Grate's, otherwise GOOD with the MAC's
GOOD. -/
def execEffectiveVerdict (frame : Nat) (s : State) : Host.Outcome State Fault Refusal :=
  .next (
    match frameAt s frame with
    | none => s
    | some x =>
      if x.eff.isSome then s
      else
        let macBad := match x.mac with | some (.bad _) => true | _ => false
        if macBad || x.mismatch then
          let s := setFrame s frame { x with eff := some false }
          logBadFrame (countBadUpdates (suppressBad s frame) x) frame
        else if x.mac = some .good then setFrame s frame { x with eff := some true }
        else s)

end Sys2Proof.Machine
end

