-- ==== Sys2Proof/Machine/Rings.lean ====
section
/-! DEFINITION. Slow-path rings (03): chains as they become due and are written, notifications, and the writes of a ring's
objects and of filter entries. -/

namespace Sys2Proof.Machine

/-! ### Rings (R101, R129) -/

/-- Ring `r`. -/
def ringAt (s : State) (r : Nat) : Ring := tabGet Ring.reset s.net.rings r

/-- Writes ring `r`. -/
def setRing (s : State) (r : Nat) (x : Ring) : State :=
  { s with net := { s.net with rings := tabSet Ring.reset s.net.rings r x } }

def ringDir (s : State) (r : Nat) : Nat := val s (0x2140 + r) 1
def ringBase (s : State) (r : Nat) : Nat := val s (0x2140 + r) 2
def ringSize (s : State) (r : Nat) : Nat := val s (0x2140 + r) 3
def ringHead (s : State) (r : Nat) : Nat := val s (0x2140 + r) 4
def ringTail (s : State) (r : Nat) : Nat := val s (0x2140 + r) 5

/-- Whether a ring is a receive ring (R101). -/
def isReceive (s : State) (r : Nat) : Bool := r < 64 && ringDir s r == 1

/-- Descriptors handed to the block: from Head up to Tail. -/
def ringAvail (s : State) (r : Nat) : Nat :=
  let n := ringSize s r
  if n = 0 then 0 else (ringTail s r + n - ringHead s r) % n

/-- The node of a wafer ring's memory can be reached (R26, R108). -/
def ringReachable (s : State) (r : Nat) : Bool := reachable s (waferX (ringBase s r)) (waferY (ringBase s r))

/-- An owner is told of the chains it has not been told of (R109). -/
def notifyRing (s : State) (r : Nat) : State :=
  let s := setRing s r { ringAt s r with unnotified := 0 }
  if r < 8 then emit s (.firmwareEvent r)
  else
    let core := val s (0x2140 + r) 9
    sendAt s r { bytes := pktBytes (pkt 0x10 (bits core 15 0) (bits core 31 16) none (r + 65536 * ringHead s r) []), req := none }

/-- A chain has been written: its ring's owner is notified by count, or at once with Notify time 0 (R109). -/
def countChain (s : State) (r : Nat) : State :=
  let s := bump s (0x2140 + r) 0x0A
  let n := (ringAt s r).unnotified + 1
  let s := setRing s r { ringAt s r with unnotified := n }
  if val s (0x2140 + r) 7 ≤ n || val s (0x2140 + r) 8 = 0 then notifyRing s r else s

/-! ### Chains as they become due (R104, R587, R588) -/

/-- The chain that `kind` names of a frame, with its ring; none where the frame gives no such chain. A chain of a frame
steered to a context carries that context's tag (DEDUCED, notes/assumptions/39). -/
def chainOf (s : State) (f : Nat) (x : Frame) (kind : ChainKind) : Option (Nat × Chain) :=
  let plain : Chain :=
    { frame := f, kind := kind, decl := none, miss := false, moff := 0, mlen := 0, tag := none, lost := x.lost }
  match kind, x.steer with
  | .action, some (_, .ring r) => some (r, plain)
  | .copy, some (_, .context c (some r)) => some (r, { plain with tag := some (ctxTag s c) })
  | .message k, some (_, .context c _) =>
    let ring := val s (cb c 2) 0x26
    if x.whole then
      if k = 0 then some (ring, { plain with decl := some 7, tag := some (ctxTag s c) }) else none
    else
      match (x.messages[k]?).bind (msgAt s) with
      | none => none
      | some m =>
        let ch := { plain with moff := m.moff, mlen := m.mlen, tag := some m.tag }
        match m.fate with
        | .declined r => some (ring, { ch with decl := some r })
        | .miss => some (ring, { ch with miss := true })
        | _ => none
  | _, _ => none

/-- The chains of a frame that stand before `kind` in the order of R104, and `kind` itself. -/
def chainsUpTo (kind : ChainKind) : List ChainKind :=
  match kind with
  | .action => [.action]
  | .copy => [.action, .copy]
  | .message k => [.action, .copy] ++ (List.range (k + 1)).map .message

/-- One chain of a frame joins its ring's queue, unless it has done so or the frame gives no such chain. -/
def dueChain (s : State) (f : Nat) (kind : ChainKind) : State :=
  match frameAt s f with
  | none => s
  | some x =>
    if x.due.contains kind then s
    else match chainOf s f x kind with
      | none => s
      | some (r, ch) =>
        let s := setFrame s f { x with due := x.due ++ [kind] }
        let y := ringAt s r
        setRing s r { y with chains := y.chains ++ [ch] }

/-- RING_CHAIN_DUE (R88, R104, R587): a chain becomes due once 64 bytes have arrived, and joins its ring's queue. Chains of the
frame that stand before it in the order of R104 have become due before it, and join first. -/
def execRingChainDue (frame : Nat) (kind : ChainKind) (s : State) : Host.Outcome State Fault Refusal :=
  .next (
    match frameAt s frame with
    | none => s
    | some x => if x.bytes.length < 64 then s else (chainsUpTo kind).foldl (fun s k => dueChain s frame k) s)

/-! ### Writing a chain (R102–R108) -/

/-- Entry 0x2101 for a drop, at most one until the next delivered chain or configuration write (R106). -/
def logDrop (s : State) (r : Nat) (ch : Chain) (port : Nat) : State :=
  let y := ringAt s r
  if y.dropLogged then s
  else soot (setRing s r { y with dropLogged := true }) 0x2101 ch.tag (r + 256 * port) 0

/-- The frame is dropped for a ring (R106, R586). -/
def dropChain (s : State) (r : Nat) (ch : Chain) (port : Nat) : State := logDrop (bump s (0x2140 + r) 0x0B) r ch port

/-- A descriptor that the block uses: its number, its buffer address and size, and the bytes put there. -/
structure Filled where
  index : Nat
  addr : Nat
  buflen : Nat
  data : Bytes
  deriving DecidableEq, Repr

def descAddr (d : Bytes) : Nat := leAt d 0 8
def descBuflen (d : Bytes) : Nat := leAt d 10 2
def descOwned (d : Bytes) : Bool := bit (leAt d 12 4) 31

/-- Fills descriptors from number `i` of a ring of `n` with a frame's bytes: the filled ones, those of BUFLEN 0 handed
back, the bytes left over, and the next Head (R103). -/
def fillChain (ds : List Bytes) (i n : Nat) (data : Bytes) : List Filled × List Nat × Bytes × Nat :=
  match ds with
  | [] => ([], [], data, i)
  | d :: ds =>
    if data.isEmpty || !descOwned d then ([], [], data, i)
    else
      let next := (i + 1) % n
      if descBuflen d = 0 then
        let r := fillChain ds next n data
        (r.1, i :: r.2.1, r.2.2)
      else
        let k := descBuflen d
        let r := fillChain ds next n (data.drop k)
        ({ index := i, addr := descAddr d, buflen := k, data := data.take k } :: r.1, r.2)

/-- The bytes that a frame's chains carry: those before the FCS, or all that arrived of a frame cut or aborted (R89, R104).
While the frame is arriving its last four bytes may prove to be the FCS, and are held back. -/
def chainData (x : Frame) : Bytes :=
  match x.cut with
  | some _ => x.bytes
  | none => x.bytes.take (x.bytes.length - 4)

/-- The length of the message that a chain identifies: as it is known now, a message without a length field of its own once
its frame has ended (R173, R588). -/
def chainMlen (s : State) (x : Frame) (ch : Chain) : Nat :=
  match ch.kind with
  | .message k => if x.whole then ch.mlen else match (x.messages[k]?).bind (msgAt s) with | some m => m.mlen | none => ch.mlen
  | _ => ch.mlen

/-- The verdict bits of W3 (R102); none for a runt, which has no chain. -/
def verdictBits (v : Option Verdict) : Nat :=
  match v with
  | some (.bad .fcs) => 2 ^ 27
  | some (.bad .oversize) => 2 ^ 26
  | some (.bad .code) => 2 ^ 25
  | some (.bad .abort) => 2 ^ 25
  | _ => 0

/-- The PTP instance that a port belongs to. -/
def ptpOf (s : State) (p : Nat) : Option Nat :=
  (List.range 4).find? fun n => val s (0x2210 + n) 1 ≠ 0 && bit (val s (0x2210 + n) 2) p

/-- The base of a chain's stamp (R149). -/
def chainBase (s : State) (x : Frame) : Nat :=
  let port := val s (0x2240 + x.port) 1 % 4
  match x.steer with
  | some (some k, _) => if k < 8 then (ptpOf s x.port).getD port else port
  | _ => port

/-- W3 [24:0] of a chain's descriptors (R102). -/
def chainWord (x : Frame) (ch : Chain) : Nat :=
  (if ch.decl.isSome then 2 ^ 24 else 0) + (if ch.miss then 2 ^ 23 else 0)
    + (if ch.kind = .copy then 2 ^ 22 else 0) + (if ch.tag.isSome then 2 ^ 21 else 0)
    + (ch.decl.getD 0) % 8 * 2 ^ 18 + x.port % 8 * 2 ^ 15 + (ch.tag.getD 0).toNat

/-- W4–W7 of a chain's descriptors (R102). -/
def chainTail (s : State) (x : Frame) (ch : Chain) : Bytes :=
  let b := chainBase s x
  let st := x.stamps.getD b (0, 0)
  let filter := match x.steer with | some (some k, _) => k | _ => 0x1FF
  toLe 4 st.1.toNat ++ toLe 4 (st.2.toNat * 65536 + b * 2 ^ 14) ++ toLe 4 (ch.moff % 65536 * 65536 + chainMlen s x ch % 65536)
    ++ toLe 4 filter

/-- Cuts bytes into pieces of at most `n` (n > 0). -/
def pieces (fuel n : Nat) (bs : Bytes) : List Bytes :=
  match fuel with
  | 0 => []
  | fuel + 1 => if bs.isEmpty then [] else bs.take n :: pieces fuel n (bs.drop n)

/-- A request of a ring, at its position in the Mantel list (R445). -/
def ringReq (s : State) (r : Nat) (p : Pkt) : State := sendAt s r { bytes := pktBytes p, req := some (reqOf s p (.ring r)) }

/-- The block reads `n` bytes of a wafer ring's memory with RD packets (R448). -/
def ringFetch (s : State) (r addr n : Nat) : State :=
  if r < 8 then s
  else (List.range (cdiv n 1024)).foldl (fun s k =>
    ringReq s r (pkt 0x01 (waferX addr) (waferY addr) none
      ((addr + 1024 * k) % 2 ^ 32 + 2 ^ 32 * min 1024 (n - 1024 * k)) [])) s

/-- The block writes bytes to a ring's memory: Stoker SRAM of 1 MB, or WR packets to the wafer core at the ring's position
(R101, R445, R448). -/
def ringStore (s : State) (r addr : Nat) (data : Bytes) : State :=
  if r < 8 then
    let a := addr % 2 ^ 20
    { s with net := { s.net with sram := memWriteN s.net.sram a (data.take (2 ^ 20 - a)) } }
  else
    ((pieces (data.length + 1) 1024 data).zipIdx).foldl (fun s x =>
      ringReq s r (pkt 0x02 (waferX addr) (waferY addr) none ((addr + 1024 * x.2) % 2 ^ 32) x.1)) s

/-- Hands one descriptor back: its buffer first, then W2–W7 with OWN clear (R103). -/
def handBack (s : State) (r : Nat) (d : Filled) (w3 : Nat) (tail : Bytes) : State :=
  let s := ringStore s r d.addr d.data
  ringStore s r (ringBase s r + 32 * d.index + 8) (toLe 2 d.data.length ++ toLe 2 d.buflen ++ toLe 4 w3 ++ tail)

/-- Hands back the descriptors of BUFLEN 0: DLEN 0 and no other bits (R103). -/
def handZeros (s : State) (r : Nat) (zs : List Nat) : State :=
  zs.foldl (fun s i => ringStore s r (ringBase s r + 32 * i + 8) (List.replicate 8 0)) s

/-- Hands back a chain's descriptors with SOP on the first and EOP, the verdict and TRUNC on the last. -/
def handChain (s : State) (r : Nat) (x : Frame) (ch : Chain) (fs : List Filled) (trunc : Bool) : State :=
  let n := fs.length
  let tail := chainTail s x ch
  (fs.zipIdx).foldl (fun s d =>
    let last := d.2 + 1 = n
    let w3 := chainWord x ch + (if d.2 = 0 then 2 ^ 30 else 0)
      + (if last then 2 ^ 29 + verdictBits x.mac + (if trunc then 2 ^ 28 else 0) else 0)
    handBack s r d.1 w3 tail) s

/-- Writes the front chain of ring `r` into the descriptors as the ring's memory holds them, from Head on. `written` is
false where a WR of it fails (R448). None while the frame's bytes or verdict that it still needs have not come. -/
def writeChain (s : State) (r : Nat) (x : Frame) (ch : Chain) (ds : List Bytes) (written : Bool) : Option State :=
  let data := chainData x
  let n := ringSize s r
  let (fs, zs, rest, head) := fillChain (ds.take (ringAvail s r)) (ringHead s r) n data
  if fs.isEmpty then
    some (dropChain (put (handZeros s r zs) (0x2140 + r) 4 head) r ch x.port)
  else if rest.isEmpty && x.mac.isNone then none
  else
    let trunc := !rest.isEmpty
    let s := handZeros (handChain s r x ch fs trunc) r zs
    let sent := (fs.map fun d => d.data.length).sum
    if !written && 8 ≤ r then
      let first := match fs with | d :: _ => d.index | [] => head
      some (soot (bump (put s (0x2140 + r) 4 first) (0x2140 + r) 0x0B) 0x2101 ch.tag (r + 256 * x.port) 0)
    else
      let s := put s (0x2140 + r) 4 head
      let s := if trunc then
          soot (bump (bump s (0x2140 + r) 0x0B) (0x2140 + r) 0x0C) 0x2101 ch.tag (r + 256 * x.port + 65536) sent
        else setRing s r { ringAt s r with dropLogged := false }
      some (countChain s r)

/-- RING_CHAIN_WRITE (R103–R108, R586, R587): the chain at the front of a ring's queue is written whole, truncated,
dropped, or redirected to ring 0x00. `descriptors` are the ring's descriptors from Head on. -/
def execRingChainWrite (r : BitVec 6) (descriptors : List Bytes) (written : Bool) (s : State) :
    Host.Outcome State Fault Refusal :=
  let r := r.toNat
  let y := ringAt s r
  .next (
    match y.chains with
    | [] => s
    | ch :: rest =>
      match frameAt s ch.frame with
      | none => setRing s r { y with chains := rest }
      | some x =>
        let t := setRing s r { y with chains := rest }
        if ringDir s r ≠ 1 || ringSize s r = 0 || ch.lost then dropChain t r ch x.port
        else if 8 ≤ r && !ringReachable s r then
          let z := ringAt t 0
          setRing (bump t (0x2140 + r) 0x0D) 0 { z with chains := z.chains ++ [ch] }
        else (writeChain t r x ch descriptors written).getD s)

/-- RING_NOTIFY_TIMER (R109): Notify time has passed since the first chain not notified. -/
def execRingNotifyTimer (r : BitVec 6) (s : State) : Host.Outcome State Fault Refusal :=
  .next (if (ringAt s r.toNat).unnotified = 0 then s else notifyRing s r.toNat)

/-! ### Writes of ring objects (R129) -/

/-- The descriptors that a move of Tail hands to the block are read, where they lie in a wafer core (R448). -/
def fetchDescriptors (s : State) (r old : Nat) : State :=
  let n := ringSize s r
  if ringDir s r = 0 then s
  else (List.range ((ringTail s r + n - old) % n)).foldl (fun s k => ringFetch s r (ringBase s r + 32 * ((old + k) % n)) 32) s

/-- The rules of 0x2140+r:05. -/
def writeTail (r : Nat) (data : Bytes) (s : State) : Ans :=
  let v := leNat data
  if ringSize s r ≤ v then .error abRange else .ok (fetchDescriptors (put s (0x2140 + r) 5 v) r (ringTail s r))

/-- RING_TAIL_WRITE (R103, R129). -/
def execRingTailWrite (q : Requester) (r : BitVec 6) (tail : BitVec 16) (s : State) : Host.Outcome State Fault Refusal :=
  .next (request s q (0x2140 + r.toNat) 5 (toLe 2 tail.toNat) (writeTail r.toNat (toLe 2 tail.toNat)))

/-- Whether a subindex of 0x2140+r configures the ring. -/
def ringConfigSub (sub : Nat) : Bool := (1 ≤ sub && sub ≤ 3) || (6 ≤ sub && sub ≤ 9)

/-- Whether the value lies in the ranges that R129 and R444 give beyond the table's. -/
def ringValueOk (r sub v : Nat) : Bool :=
  if sub = 1 then r ≠ 0 || v = 1
  else if sub = 2 then 8 ≤ r || v < 2 ^ 20
  else if sub = 3 then v = 0 || (8 ≤ v && v ≤ 4096 && 2 ^ Nat.log2 v = v)
  else true

/-- The rules of 0x2140+r:01–03 and :06–09. -/
def writeRingConfig (r sub : Nat) (data : Bytes) (s : State) : Ans :=
  let v := leNat data
  let free := if r = 0 then sub = 1 || (ringHead s 0 = ringTail s 0 && (ringAt s 0).chains.isEmpty)
    else ringDir s r = 0 || (sub = 1 && v = 0)
  if !ringConfigSub sub then .error abSub
  else if !ringValueOk r sub v then .error abRange
  else if !free then .error abState
  else
    let s := put s (0x2140 + r) sub v
    let s := if sub = 2 || sub = 3 then put (put s (0x2140 + r) 4 0) (0x2140 + r) 5 0 else s
    .ok (setRing s r { ringAt s r with dropLogged := false })

/-- A value in the bytes of an object's type. -/
def objBytes (i sub v : Nat) : Bytes :=
  match findRow i sub with
  | none => toLe 1 v
  | some row => match tyBytes row.ty with | some n => toLe n v | none => toLe 1 v

/-- RING_CONFIG_WRITE (R129). -/
def execRingConfigWrite (q : Requester) (r : BitVec 6) (sub : BitVec 8) (value : BitVec 64) (s : State) :
    Host.Outcome State Fault Refusal :=
  let i := 0x2140 + r.toNat
  let data := objBytes i sub.toNat value.toNat
  .next (request s q i sub.toNat data (writeRingConfig r.toNat sub.toNat data))

/-! ### Filter entries (R92, R93, R99, R100, R127) -/

/-- Whether the reserved fields of an entry are zero. -/
def filterReserved (e : BitVec 256) : Bool :=
  filterWord e 0 &&& 0x030300FF == 0 && filterWord e 1 &&& 0x00FFFFFF == 0 && filterWord e 2 &&& 0xF000F000 == 0
    && filterWord e 3 &&& 0xFFFF0000 == 0 && filterWord e 5 &&& 0xFFFFFFC0 == 0 && filterWord e 7 == 0

/-- Whether an entry may stand in a filter table (R92, R93); one whose V is 0 is checked for its reserved fields only. -/
def filterOk (s : State) (e : BitVec 256) : Bool :=
  let w0 := filterWord e 0
  let w1 := filterWord e 1
  let w6 := filterWord e 6
  let owner := bits w0 30 29
  let action := bits w0 28 27
  let vmode := bits w1 31 30
  filterReserved e && (!bit w0 31 ||
    (owner ≠ 0 && action ≠ 3
      && !(bit w1 29 && vmode ≤ 1) && !(bit w1 28 && vmode ≠ 3)
      && bits (filterWord e 5) 5 0 ≤ 32
      && !(bits w1 25 24 ≠ 0 && bits w6 15 0 < bits w6 31 16)
      && !(action = 0 && owner ≠ 1) && !(bit w0 26 && action ≠ 0)
      && isReceive s (bits w0 15 8)))

/-- Whether an index of a port's table is reserved by a context that is being loaded (R99). -/
def filterReservedBy (s : State) (p k : Nat) : Bool := (portAt s p).reserved.any fun r => r.1 = k

/-- The rules of 0x2120+p:02. -/
def writeFilterEntry (q : Requester) (p : Nat) (data : Bytes) (s : State) : Ans :=
  let k := selected s q (0x2120 + p) 1
  let e := BitVec.ofNat 256 (leNat data)
  let old := tabGet 0 (portAt s p).filters k
  let owner (x : BitVec 256) : Nat := bits (filterWord x 0) 30 29
  let live (x : BitVec 256) : Bool := bit (filterWord x 0) 31
  if data.length < 32 then .error abShort
  else if 32 < data.length then .error abLong
  else if !filterOk s e then .error abRange
  else if k < 8 || (live old && owner old ≠ 2) || (live e && owner e ≠ 2) || filterReservedBy s p k then .error abState
  else .ok (setFilter s p k e)

/-- FILTER_ENTRY_WRITE (R98, R100, R127). -/
def execFilterEntryWrite (q : Requester) (p : BitVec 3) (entry : Bytes) (s : State) : Host.Outcome State Fault Refusal :=
  .next (request s q (0x2120 + p.toNat) 2 entry (writeFilterEntry q p.toNat entry))

end Sys2Proof.Machine
end

