-- ==== Sys2Proof/Machine/Egress.lean ====
section
/-! DEFINITION. Links and the transmit side of the ports (03): modes and link state, transmit rings and the firmware queue,
gate control lists, and frame preemption. -/

namespace Sys2Proof.Machine

/-! ### Links (R78–R84, R125) -/

/-- A reply in transmission ends without a good FCS: it counts as stomped for its session and its resend entry (R422). -/
def endStomped (s : State) (r : Nat) (x : Reply) (status : Nat) : State :=
  let s := holdSession (resendStatus s x status) x
  let s := setReply s r { x with state := .ended, commit := some false }
  let y := portAt s x.port
  setPort s x.port { y with sending := y.sending.filter (· != r) }

/-- A reply in transmission is lost with its link (R83). One that has been stomped at its commit point is counted there, and each
reply counts once (R428). -/
def loseReply (s : State) (r : Nat) : State :=
  match replyAt s r with
  | none => s
  | some x =>
    let t := endStomped s r x 3
    let t := if x.commit = some false then t else bump t (0x2110 + x.port) 0x13
    soot t 0x2102 (some x.tag) x.port x.template

/-- What a port's link does once it is down: it trains where its mode or its training setting says so, while its domain is
On and not retired (R78, R79, R125, R493). In mode 4 it negotiates with the two abilities, requesting RS-FEC only with FEC
mode 1; BASE-R FEC and energy-efficient Ethernet are never offered (R79–R81). -/
def linkStart (s : State) (p : Nat) : State :=
  let x := portAt s p
  let mode := val s (0x2100 + p) 1
  let trains := mode = 4 || (mode ≠ 0 && val s (0x2100 + p) 0x0B = 1)
  let up := trains && domIsOn s p
  let s := setPort s p { x with link := if up then .negotiating else .down }
  if up && mode = 4 then emit s (.negotiate p [.cr25G, .crS25G] (val s (0x2100 + p) 2 = 1)) else s

/-- A link that is lost ends the frame in reception with what has arrived of it (R85, R104); a frame that the MAC has cut keeps
its cause. -/
def abortRx (s : State) (p : Nat) : State :=
  match (portAt s p).rx with
  | none => s
  | some f =>
    match frameAt s f with
    | none => freeRx s p
    | some x =>
      if x.cut.isSome then endCutFrame s p f x x.bytes.length
      else freeRx (endFrame (setFrame s f { x with ended := some x.bytes.length, cut := some .abort }) f) p

/-- A link goes down: a link that was up counts a link down event, ends the frames in reception, and loses the reply in
transmission (R83, R85, R126). A frame in transmission or waiting to resume is lost. -/
def dropLink (s : State) (p : Nat) : State :=
  let s := if linkUp (portAt s p) then
      let s := abortRx (abortRx s p) p
      (portAt s p).sending.foldl loseReply (bump32 s (0x2110 + p) 0x14)
    else s
  let s := put s (0x2110 + p) 3 0
  let x := portAt s p
  setPort s p { x with link := .down, fec := false, sending := [], tx := x.tx.map fun t => { t with lost := true }, idleAt := 0 }

/-- The rules of 0x2100+p:01 (R125, R547): the link goes down and comes up under the new mode, and a non-zero mode brings
the domain On. -/
def writePortMode (p : Nat) (data : Bytes) (s : State) : Ans :=
  let mode := leNat data
  let s := put (dropLink s p) (0x2100 + p) 1 mode
  let s := if mode = 0 then s else requestOn s p
  .ok (linkStart s p)

/-- PORT_MODE_WRITE (R78, R125). -/
def execPortModeWrite (q : Requester) (p : BitVec 3) (mode : BitVec 8) (s : State) : Host.Outcome State Fault Refusal :=
  .next (request s q (0x2100 + p.toNat) 1 [mode] (writePortMode p.toNat [mode]))

/-- RESTART_LINK (R125): the link restarts with the present settings. -/
def execRestartLink (q : Requester) (p : BitVec 3) (s : State) : Host.Outcome State Fault Refusal :=
  .next (request s q (0x2100 + p.toNat) 0x0C [1] fun s => .ok (linkStart (dropLink s p.toNat) p.toNat))

/-- Whether a link can come up at a speed and FEC state under the port's mode and settings (R78–R80). -/
def linkAllowed (s : State) (p : Nat) (speed : Speed) (rsFec : Bool) : Bool :=
  let mode := val s (0x2100 + p) 1
  let fec := val s (0x2100 + p) 2 = 1
  domIsOn s p && mode ≠ 0 && (speed = .g10) = (mode = 1)
    && (if mode = 1 then !rsFec else if mode = 4 then !rsFec || fec else rsFec = fec)

/-- LINK_UP (R79–R82, R120, R121, R125): the link comes up, and the settings written since the last bring-up take effect.
Verification starts where the preemption enable asks for it. A negotiation that resolves to anything else leaves the link
down and starts again. -/
def execLinkUp (p : BitVec 3) (speed : Speed) (rsFec : Bool) (s : State) : Host.Outcome State Fault Refusal :=
  let p := p.toNat
  let x := portAt s p
  .next (
    if linkUp x then s
    else if !linkAllowed s p speed rsFec then
      if val s (0x2100 + p) 1 = 4 && x.link = .negotiating then linkStart s p else s
    else
      let en := val s (0x2100 + p) 8
      let s := setPort s p { x with
        link := (match speed with | .g10 => .up10 | .g25 => .up25), fec := rsFec, penable := en,
        frag := val s (0x2100 + p) 9, verifyMs := val s (0x2100 + p) 0x0A, verifyTries := if en = 1 then 1 else 0 }
      let s := put s (0x2110 + p) 3 (match en with | 0 => 0 | 1 => 1 | _ => 2)
      if en = 1 then emit s (.mPacket p false) else s)

/-- A port is retired: its link is held down as if in Mode 0 (R493, R495). -/
def retirePort (s : State) (p : Nat) : State :=
  if (domAt s p).retired then s
  else
    let s := setDom (dropLink (logRetired s p) p) p { domAt s p with retired := true, open_ := false }
    noteRetired s 6 p ((List.range 8).filter fun k => (domAt s k).retired).length

/-- LINK_DOWN (R82, R83, R126, R495): the link is lost, counts, and is brought up again; past the port's threshold the
port is retired. -/
def execLinkDown (p : BitVec 3) (s : State) : Host.Outcome State Fault Refusal :=
  let p := p.toNat
  .next (
    if !linkUp (portAt s p) then s
    else
      let (due, s) := strike (linkStart (dropLink s p) p) 6 p
      if due then retirePort s p else s)

/-- LINK_TRAINING_TIMEOUT (R79): the attempt fails, counts as a link down event, and negotiation restarts. -/
def execLinkTrainingTimeout (p : BitVec 3) (s : State) : Host.Outcome State Fault Refusal :=
  let p := p.toNat
  .next (if (portAt s p).link = .negotiating then linkStart (bump32 s (0x2110 + p) 0x14) p else s)

/-! ### Transmitting (R110–R113) -/

def txOwned (d : Bytes) : Bool := bit (leAt d 12 4) 31
def txSop (d : Bytes) : Bool := bit (leAt d 12 4) 30
def txEop (d : Bytes) : Bool := bit (leAt d 12 4) 29
def txLen (d : Bytes) : Nat := leAt d 8 2

/-- The frame at the head of a transmit ring, where the descriptors give one whole frame. LEN of each descriptor is taken as the
length of its own part, and their sum as the frame's (DESIGN CHOICE: R110 calls LEN the frame length and lets a frame have
several descriptors, notes/assumptions/46). -/
def headFrame (s : State) (p : Nat) (h : TxHead) : Option TxFrame :=
  let r := h.ring.toNat
  match h.descs with
  | [] => none
  | d :: _ =>
    let w3 := leAt d 12 4
    if ringDir s r = 2 && val s (0x2140 + r) 6 = p && h.descs.length ≤ ringAvail s r
        && h.descs.all (fun x => txOwned x && x.length = 32)
        && (h.descs.zipIdx).all (fun x => txSop x.1 = (x.2 = 0) && txEop x.1 = (x.2 + 1 = h.descs.length))
        && (h.descs.map txLen).sum = h.data.length then
      some { src := r, tc := BitVec.ofNat 3 (bits w3 28 26), tsReq := bit w3 25, oneStep := bit w3 24,
             refN := BitVec.ofNat 32 (leAt d 16 4), data := h.data, descs := h.descs }
    else none

/-- Error bits of a frame that is not sent: each of ERR_TC, ERR_LINK and ERR_LEN whose condition holds (R110, R111); 0 for none.
A frame's EtherType is not looked at: what software puts into a ring is sent, MAC control or not (DESIGN CHOICE beside
R81, notes/assumptions/46). -/
def txError (s : State) (p : Nat) (f : TxFrame) : Nat :=
  (if f.tc = 7 then 2 ^ 20 else 0) + (if linkUp (portAt s p) then 0 else 2 ^ 21)
    + (if lmax s p - 4 < f.data.length then 2 ^ 22 else 0)

/-- Whether a frame may start: its gate is open until its last byte and the inter-frame gap have left (R117), and the
MAC is not held. -/
def txReady (s : State) (p : Nat) (f : TxFrame) : Bool :=
  let x := portAt s p
  let dur := cdiv (idleWait s p + ((wireLength f.data.length + 20 : Nat) : Int) * portByte x).toNat 5120000000
  gateOpenFor s p f.tc.toNat dur && !macHeld s p

/-- Next in round robin after source `last`: the lowest source above it, else the lowest (R112, R113). -/
def nextInRobin (last : Nat) (fs : List TxFrame) : Option TxFrame :=
  let least (l : List TxFrame) : Option TxFrame :=
    l.foldl (fun b f => match b with | none => some f | some g => if f.src < g.src then some f else some g) none
  match least (fs.filter fun f => last < f.src) with
  | some f => some f
  | none => least fs

/-- The frame that the scheduler takes next (R112): of the classes whose next frame, that of the ring whose turn it is, may
start or is refused, the highest. -/
def scheduled (s : State) (p : Nat) (fs : List TxFrame) : Option TxFrame :=
  [7, 6, 5, 4, 3, 2, 1, 0].findSome? fun t =>
    (nextInRobin (tabGet 0x80 (portAt s p).served t) (fs.filter fun f => f.tc.toNat = t)).filter fun f =>
      txError s p f ≠ 0 || txReady s p f

/-- Hands a ring frame back: DONE with the error bits, and the egress stamp where TSREQ asks for it; Head moves past it. -/
def handTx (s : State) (f : TxFrame) (err : Nat) (stamp : Option (BitVec 32 × BitVec 16)) (base : Nat) : State :=
  if 0x40 ≤ f.src then s
  else
    let r := f.src
    let head := ringHead s r
    let s := (f.descs.zipIdx).foldl (fun s d =>
      let i := (head + d.2) % max 1 (ringSize s r)
      let w3 := leAt d.1 12 4 &&& 0x7F0FFFFF
      let ts : Bytes := match stamp with
        | some t => if f.tsReq then toLe 4 t.1.toNat ++ toLe 4 (t.2.toNat * 65536 + base * 2 ^ 14) else slice d.1 16 8
        | none => slice d.1 16 8
      ringStore s r (ringBase s r + 32 * i + 12) (toLe 4 (w3 ||| 2 ^ 23 ||| err) ++ ts)) s
    put s (0x2140 + r) 4 ((head + f.descs.length) % max 1 (ringSize s r))

/-- Base of a transmit stamp (R149). -/
def txBase (s : State) (p : Nat) (f : TxFrame) : Nat :=
  let port := val s (0x2240 + p) 1 % 4
  if 0x40 ≤ f.src then (ptpOf s p).getD port else port

/-- Offset of the PTP message in an Ethernet or UDP/IPv4 frame. -/
def ptpOffset (d : Bytes) : Nat := if beAt d 12 2 = 0x0800 then 14 + 4 * ((byteAt d 14).toNat % 16) + 8 else 14

/-- One-step insertion (R160): the egress stamp minus the reference N is added to correctionField. -/
def oneStepData (f : TxFrame) (stamp : BitVec 32 × BitVec 16) : Bytes :=
  if f.oneStep then
    let o := ptpOffset f.data + 8
    let diff := signed 48 (stamp.1.toNat * 65536 + stamp.2.toNat + (2 ^ 48 - f.refN.toNat * 65536))
    patch f.data o (toBe 8 (unsign 64 (signed 64 (beAt f.data o 8) + diff)))
  else f.data

/-- A frame leaves its source: the firmware queue gives up its head, and the buffers of a wafer ring's frame are read (R448). -/
def takeTx (s : State) (p : Nat) (f : TxFrame) : State :=
  let s := f.descs.foldl (fun s d => ringFetch s f.src (descAddr d) (txLen d)) s
  let x := portAt s p
  let x := { x with served := tabSet 0x80 x.served f.tc.toNat f.src }
  setPort s p (if 0x40 ≤ f.src then { x with fwQueue := x.fwQueue.tail } else x)

/-- A two-step Sync of an instance is answered by its Follow_Up with the egress stamp, whole nanoseconds and fraction, or counted
as lost (R161). -/
def followUp (s : State) (p : Nat) (f : TxFrame) (lost : Bool) (stamp : Nat × BitVec 16) : State :=
  match ptpOf s p with
  | none => s
  | some n =>
    let o := ptpOffset f.data
    if 0x40 ≤ f.src && f.tsReq && (byteAt f.data o).toNat % 16 = 0 then
      if lost then setPtp s n { ptpAt s n with lostSyncs := (ptpAt s n).lostSyncs + 1 }
      else ptpSend s n p 8 ((stamp.1 * 65536 : Nat) : Int) stamp.2.toNat (BitVec.ofNat 16 (beAt f.data (o + 30) 2)) none []
    else s

/-! ### The port's express queue (R112, R420) -/

/-- Speed at which a reply leaves. -/
def replySpeed (s : State) (p : Nat) : Speed := (linkSpeed (portAt s p)).getD .g25

/-- L_r of a reply (R187). -/
def wireBytes (x : Reply) : Nat := max x.body.length 60 + 4

/-- Whether the wire may be given to the next reply: each reply before it has passed its commit point (R425). -/
def wireFree (s : State) (p : Nat) : Bool :=
  (portAt s p).sending.all fun k =>
    match replyAt s k with
    | none => true
    | some x => x.commit.isSome

/-- When the last bits and gaps of the replies before it will have left. -/
def wireAt (s : State) (p : Nat) : Time :=
  (portAt s p).sending.foldl (fun t k =>
    match replyAt s k with
    | none => t
    | some x => max t (x.start + ((wireBytes x + 20 : Nat) : Int) * byteTime (replySpeed s p))) 0

/-- The effective verdict of a reply's frame. -/
def replyVerdict (s : State) (x : Reply) : Option Bool := (frameAt s x.frame).bind (·.eff)

/-- One cycle of the time-base clock (R132). A release is commanded in the cycle in which its instant falls (DESIGN CHOICE,
notes/assumptions/38). -/
def cycleSpan : Time := ps 1600

/-- The instant at which a head that is commanded now leaves: now, or within this cycle once its hold, the replies before
it and the gap after what left last allow it (R420). -/
def releaseAt (s : State) (p : Nat) (x : Reply) : Time :=
  max (admNow s + idleWait s p) (max (x.hold - tTx (replySpeed s p)) (wireAt s p))

/-- Whether the head of a port's queue may start but for a preemptable frame in transmission (R190, R420). -/
def releaseOpen (s : State) (p : Nat) (x : Reply) : Bool :=
  let dur := cdiv (((wireBytes x + 20 : Nat) : Int) * byteTime (replySpeed s p)).toNat 5120000000
  wireFree s p && gateOpenFor s p 7 dur && decide (releaseAt s p x < admNow s + cycleSpan)
    && (!x.verified || replyVerdict s x = some true)

/-- No preemptable frame is in transmission: it has yielded, or it has ended (R122, R124). -/
def txYields (s : State) (p : Nat) : Bool :=
  match (portAt s p).tx with
  | none => true
  | some t => t.preempted || t.lost

/-- Whether the head of a port's queue may be released (R190, R420). -/
def releaseReady (s : State) (p : Nat) (x : Reply) : Bool := txYields s p && releaseOpen s p x

/-- Whether an express reply is ready to start on a port: the class above all others has a frame to send (R112, R122, R123). -/
def expressWaits (s : State) (p : Nat) : Bool :=
  match (portAt s p).queue.head?.bind (replyAt s) with
  | none => false
  | some x => domIsOn s 32 && releaseOpen s p x

/-! ### Preemption (R117, R120–R123) -/

/-- A preemptable frame in transmission is asked to yield: while preemption is active it ends its fragment at its next
preemption point, counts, and waits; one that has no such point left runs to its end (R117, R121, R122). -/
def preemptTx (s : State) (p : Nat) : State :=
  let x := portAt s p
  match x.tx with
  | none => s
  | some t =>
    if t.preempted || t.lost || !preemptActive s p then s
    else match preemptPoint s p t with
      | none => s
      | some k =>
        let u := { t with preempted := true, sent := t.sent + k, fragments := t.fragments + 1 }
        let s := setPort s p { x with tx := some u, idleAt := fragmentEnd s p t k }
        emit (bump s (0x2110 + p) 0x10)
          (.fragmentOut p t.fragments (slice t.wire t.sent k ++ mcrcBytes (t.wire.take (t.sent + k))))

/-- A preempted frame resumes once no reply is in transmission or ready to follow, and its gate is open (R117, R123). -/
def resumeTx (s : State) (p : Nat) : State :=
  let x := portAt s p
  match x.tx with
  | none => s
  | some t =>
    if t.preempted && !t.lost && x.sending.isEmpty && !expressWaits s p && gateOpen s p t.frame.tc.toNat && !macHeld s p then
      setPort s p { x with tx := some { t with preempted := false, start := elapsed s + idleWait s p } }
    else s

/-- The preemptable frame of a port follows its gate: it resumes where the gate is open and the MAC not held, and otherwise
yields (R117). -/
def gateTx (s : State) (p : Nat) : State :=
  match (portAt s p).tx with
  | none => s
  | some t => if gateOpen s p t.frame.tc.toNat && !macHeld s p then resumeTx s p else preemptTx s p

/-! ### Frames (R110–R113) -/

/-- TX_FRAME_START (R111, R112, R117, R123): the scheduler takes a frame while the port is free of replies and of another
frame; one that cannot be sent is handed back at once. A preempted frame resumes before any other starts. `heads` are the head
frames of the transmit rings bound to the port. -/
def execTxFrameStart (p : BitVec 3) (heads : List TxHead) (s : State) : Host.Outcome State Fault Refusal :=
  let p := p.toNat
  let x := portAt s p
  let fs := heads.filterMap (headFrame s p) ++ (x.fwQueue.head?).toList
  .next (
    if x.tx.isSome then resumeTx s p
    else if !x.sending.isEmpty || expressWaits s p then s
    else match scheduled s p fs with
      | none => s
      | some f =>
        let t := takeTx s p f
        let err := txError s p f
        if err ≠ 0 then followUp (handTx t f err none 0) p f true (0, 0)
        else
          let st := egressStamps s p
          let y := portAt t p
          let wire := padded (oneStepData f (st.getD (txBase s p f) (0, 0)))
          let now : TxNow :=
            { frame := f, wire := wire ++ fcsBytes wire, sent := 0, fragments := 0, start := elapsed s + idleWait s p,
              stamp := st, preempted := false, lost := false }
          emit (setPort t p { y with tx := some now }) (.frameStart p f))

/-- Extended time of a stamp taken shortly before now on a base: the latest whose N agrees (R157). -/
def stampE (s : State) (n : Nat) (st : BitVec 32) : Nat :=
  let e := baseE (baseAt s n)
  e + 2 ^ 31 - (e + 2 ^ 31 - st.toNat) % 2 ^ 32

/-- TX_FRAME_DONE (R110, R111, R161): the frame has left, or was lost with its link, and its descriptor is handed back. -/
def execTxFrameDone (p : BitVec 3) (s : State) : Host.Outcome State Fault Refusal :=
  let p := p.toNat
  let x := portAt s p
  .next (
    match x.tx with
    | none => s
    | some t =>
      let b := txBase s p t.frame
      let st := t.stamp.getD b (0, 0)
      if t.lost then followUp (handTx (setPort s p { x with tx := none }) t.frame (2 ^ 21) none b) p t.frame true (0, 0)
      else if t.preempted then s
      else
        let s := leaveGap (setPort s p { x with tx := none }) p 12
        let s := bumpBy 64 (bump s (0x2110 + p) 0x0D) (0x2110 + p) 0x0E t.wire.length
        let s := handTx (emit s (.frameOut p t.frame (t.wire.drop t.sent))) t.frame 0 (some st) b
        let s := if t.frame.src < 0x40 then bump s (0x2140 + t.frame.src) 0x0A else s
        followUp s p t.frame false (stampE s b st.1, st.2))

/-! ### Gate control lists (R115–R118, R128) -/

/-- The entry in force at this instant of the gate base takes effect, and the frame in transmission follows its gate (R116,
R117). Gate enable FALSE opens every gate and runs no list (R128). -/
def applyGates (s : State) (p : Nat) : State :=
  if val s (0x2130 + p) 1 = 0 then gateTx s p
  else
    let x := portAt s p
    gateTx (setPort s p { x with oper := gateRun x.oper (adminStates s p) (baseE (baseAt s (gateBase s p))) }) p

/-- GATE_ENTRY_ADVANCE (R116, R117). -/
def execGateEntryAdvance (p : BitVec 3) (s : State) : Host.Outcome State Fault Refusal := .next (applyGates s p.toNat)

/-- The rules of 0x2130+p:07 (R118): an administrative list without a cycle time is refused and counted; otherwise the
change waits for its base time, in place of one that waits already. -/
def writeConfigChange (p : Nat) (s : State) : Ans :=
  let i := 0x2130 + p
  let n := val s i 2
  let cycle := val s i 5
  if n ≠ 0 && cycle = 0 then .errorIn abRange (bump32 s i 0x0B)
  else
    let x := portAt s p
    let base := val s i 4
    let now := baseE (baseAt s (gateBase s p))
    .ok (setPort s p { x with change := some {
      list := x.adminList.take n, base := base, cycle := cycle,
      start := if now < base then base else gateCycleStart base cycle (now + 1) } })

/-- CONFIG_CHANGE (R118). -/
def execConfigChange (q : Requester) (p : BitVec 3) (value : BitVec 8) (s : State) : Host.Outcome State Fault Refusal :=
  .next (request s q (0x2130 + p.toNat) 7 [value] (writeConfigChange p.toNat))

/-- CONFIG_CHANGE_APPLY (R117, R118): once the start time of the change is reached the running cycle ends and the list becomes
operational; a frame in transmission follows its gate. -/
def execConfigChangeApply (p : BitVec 3) (s : State) : Host.Outcome State Fault Refusal :=
  let p := p.toNat
  let x := portAt s p
  .next (
    match x.change with
    | none => s
    | some c =>
      if baseE (baseAt s (gateBase s p)) < c.start then s
      else
        let g : GateList := { list := c.list, base := c.base, cycle := c.cycle, pos := 0, gates := x.oper.gates,
                              since := c.start, held := false }
        applyGates (put (setPort s p { x with change := none, oper := g }) (0x2130 + p) 9 c.base) p)

/-! ### Verification (R120, R121) -/

/-- PREEMPTION_VERIFY_TIMER (R120): a verify mPacket is sent again, or after three attempts verification has failed. -/
def execPreemptionVerifyTimer (p : BitVec 3) (s : State) : Host.Outcome State Fault Refusal :=
  let p := p.toNat
  let x := portAt s p
  .next (
    if val s (0x2110 + p) 3 ≠ 1 then s
    else if x.verifyTries < 3 then emit (setPort s p { x with verifyTries := x.verifyTries + 1 }) (.mPacket p false)
    else put s (0x2110 + p) 3 3)

/-- VERIFY_RESPONSE (R120, R121): a verify mPacket is answered with a respond mPacket; a respond ends a verification under
way with success. -/
def execVerifyResponse (p : BitVec 3) (respond : Bool) (s : State) : Host.Outcome State Fault Refusal :=
  let p := p.toNat
  .next (
    if !linkUp (portAt s p) then s
    else if respond then (if val s (0x2110 + p) 3 = 1 then put s (0x2110 + p) 3 2 else s)
    else emit s (.mPacket p true))

end Sys2Proof.Machine
end

