-- ==== Sys2Proof/Machine/Counters.lean ====
section
/-! DEFINITION. Sync counters (15): increments, waits and hand sets. -/

namespace Sys2Proof.Machine

/-- No parking entry: a counter number past K1023. -/
def notParked : Nat × BitVec 64 := (1024, 0)

/-- Replies at the head of a wait line that are parked on counter `k` (R472). -/
def parkedHeads (s : State) (k : Nat) : List Nat :=
  s.chim.lines.filterMap fun l =>
    match l.2.head? with
    | none => none
    | some r =>
      match replyAt s r with
      | none => none
      | some x =>
        match templateAt s x.ctx x.template with
        | none => none
        | some t => if x.parked && t.kwait = k then some r else none

/-- Waiters parked on counter `k` (CB+0x0B:06, 0x2B00:04). -/
def waiters (s : State) (k : Nat) : Nat :=
  (s.ctxs.map fun c => (c.2.run.parked.filter fun e => e.2.1 = k).length).sum + (parkedHeads s k).length

/-- Releases every KWAIT parked on counter `k` whose comparison now holds (R469, R470). -/
def releaseSites (s : State) (k : Nat) : State :=
  let v := counterAt s k
  s.ctxs.foldl (fun s c =>
    let x := ctxAt s c.1
    let free := (x.run.parked.filter fun e => e.2.1 = k && decide (e.2.2 ≤ v)).map (·.1)
    if free.isEmpty then s
    else setCtx s c.1 { x with run := { x.run with
      parked := x.run.parked.filter fun e => !free.contains e.1, released := x.run.released ++ free } }) s

/-- Releases every wait-line head parked on counter `k` whose ticket is reached (R469, R470). -/
def releaseHeads (s : State) (k : Nat) : State :=
  (parkedHeads s k).foldl (fun s r =>
    match replyAt s r with
    | none => s
    | some x => if ticketOf s x.ctx x.template ≤ (counterAt s k).toNat then setReply s r { x with parked := false } else s) s

/-- A counter changes and every waiter is compared: how many were released, and the state. -/
def changeCounter (s : State) (k : Nat) (v : BitVec 64) : Nat × State :=
  let t := releaseHeads (releaseSites (setCounter s k v) k) k
  (waiters s k - waiters t k, t)

/-- The most a counter holds. -/
def counterMax : BitVec 64 := 0xFFFFFFFFFFFFFFFF

/-- An increment is performed: saturating addition, logged the first time it saturates the counter since the counter's
range was loaded, and the waiters compared (R465, R467, R470). A counter that holds the maximum without having been carried
past it is not yet saturated. -/
def performInc (s : State) (k : Nat) (amount : BitVec 64) (c : Nat) : State :=
  let v := counterAt s k
  let s := bump s 0x2B00 7
  if counterMax.toNat < v.toNat + amount.toNat then
    let s := bump32 s 0x2B00 6
    let s := if s.ctr.saturated.contains k then s
      else sootCtx { s with ctr := { s.ctr with saturated := k :: s.ctr.saturated } } c 0x2B01 k 0
    (changeCounter s k counterMax).2
  else (changeCounter s k (v + amount)).2

/-- The rules of CB+0x0B:05 (R479). -/
def writeIncrement (q : Requester) (c : Nat) (data : Bytes) (s : State) : Ans :=
  let k := selected s q (cb c 0x0B) 3
  let r := counterRange s c
  let st := ctxState s c
  if k < r.1 || r.1 + r.2 ≤ k then .error abRange
  else if st = .free || st = .loading || st = .unloading then .error abState
  else .ok (requestInc s k (BitVec.ofNat 64 (leNat data)) (ctxTag s c))

/-- INCREMENT (R465). -/
def execIncrement (q : Requester) (c : BitVec 6) (amount : BitVec 64) (s : State) : Host.Outcome State Fault Refusal :=
  .next (request s q (cb c.toNat 0x0B) 5 (toLe 8 amount.toNat) (writeIncrement q c.toNat (toLe 8 amount.toNat)))

/-- The code of a hand set's source (R478). -/
def sourceCode (q : Requester) : Nat := match q with | .can _ => 0 | .mesh _ _ => 1 | .tap => 2

/-- The two entries of a hand set (R478). -/
def logHandSet (s : State) (q : Requester) (k a b released : Nat) (refused : Bool) : State :=
  let tag := (counterOwner s k).map fun c => ctxTag s c
  let s := soot s 0x2B02 tag a b
  soot s 0x2B03 tag (k + 65536 * sourceCode q + (if refused then 2 ^ 24 else 0)) released

/-- The rules of 0x2B00:02 (R477, R478). -/
def writeHandSet (q : Requester) (data : Bytes) (s : State) : Ans :=
  let k := selected s q 0x2B00 1
  let v := leNat data
  let old := (counterAt s k).toNat
  if v < old then .errorIn abRange (logHandSet s q k old v 0 true)
  else if (counterOwner s k).isNone then .errorIn abState (logHandSet s q k old v 0 true)
  else
    let (n, s) := changeCounter s k (BitVec.ofNat 64 v)
    .ok (logHandSet (bump32 s 0x2B00 5) q k old v n false)

/-- HAND_SET (R477). -/
def execHandSet (q : Requester) (value : BitVec 64) (s : State) : Host.Outcome State Fault Refusal :=
  .next (request s q 0x2B00 2 (toLe 8 value.toNat) (writeHandSet q (toLe 8 value.toNat)))

/-- COUNTER_UPDATE (R466, R470): the oldest requested increment is performed; one whose tag does not own the counter is
not performed, and its context enters Recovering (R24, R463). -/
def execCounterUpdate (s : State) : Host.Outcome State Fault Refusal :=
  .next (
    match s.ctr.requests with
    | [] => s
    | r :: rest =>
      let s := { s with ctr := { s.ctr with requests := rest } }
      let c := tagCtx r.tag
      if ownsCounter s c r.counter then performInc s r.counter r.amount c else enterRecovering s c 0x0203)

end Sys2Proof.Machine
end

