-- ==== Sys2Proof/Machine/Sfu.lean ====
section
/-! DEFINITION. The special functions of the SFU units and of Opal (R281, R358, R359): the exact value of each function,
rounded once. An algebraic function is rounded from its exact quotient or root; a transcendental one from an enclosure of
its value, in units of 2^-768, whose two ends round alike. -/

namespace Sys2Proof.Machine

/-- The functions of R358. -/
inductive Fun where
  | exp
  | log
  | recip
  | rsqrt
  | sqrt
  | tanh
  | sigmoid
  | silu
  | gelu
  deriving DecidableEq, Repr

/-- Opcode of a function (R358). -/
def Fun.code (f : Fun) : Nat :=
  match f with
  | .exp => 1
  | .log => 2
  | .recip => 3
  | .rsqrt => 4
  | .sqrt => 5
  | .tanh => 6
  | .sigmoid => 7
  | .silu => 8
  | .gelu => 9

/-! ### Enclosures -/

/-- Fraction bits of an enclosure. -/
def encBits : Nat := 768

/-- One, in units of an enclosure. -/
def encOne : Nat := 2 ^ encBits

/-- An enclosure of a value that is not negative: it lies strictly between the two ends. -/
abbrev Enc := Nat × Nat

/-- A dyadic number m · 2^e as an enclosure, both ends one unit off. -/
def encOf (m : Nat) (e : Int) : Enc :=
  let k := e + encBits
  if 0 ≤ k then (m * pow2 k - 1, m * pow2 k + 1) else (m / pow2 (-k) - 1, m / pow2 (-k) + 1)

/-- Product of enclosures. -/
def encMul (a b : Enc) : Enc := (a.1 * b.1 / encOne, cdiv (a.2 * b.2) encOne)

/-- Quotient of enclosures; the divisor's lower end is not 0. -/
def encDiv (a b : Enc) : Enc := (a.1 * encOne / b.2, cdiv (a.2 * encOne) b.1)

/-- Sum and difference of enclosures. -/
def encAdd (a b : Enc) : Enc := (a.1 + b.1, a.2 + b.2)
def encSub (a b : Enc) : Enc := (a.1 - b.2, a.2 - b.1)

/-- `n` terms of the exponential series of y from term number `k` and value `t` on, each end rounded outward. -/
def expTerms (y : Enc) (n k : Nat) (t : Enc) : Enc :=
  match n with
  | 0 => (0, 2 * t.2 + 1)
  | n + 1 => encAdd t (expTerms y n (k + 1) (t.1 * y.1 / (encOne * k), cdiv (t.2 * y.2) (encOne * k)))

/-- e^t for 0 ≤ t < 4,096: the series of t / 1,024, squared ten times. -/
def encExp (t : Enc) : Enc :=
  let y : Enc := (t.1 / 1024, t.2 / 1024 + 1)
  Nat.repeat (fun v => encMul v v) 10 (expTerms y 130 1 (encOne, encOne))

/-- `n` terms of Σ z^(2k+1) / (2k+1) from k on, z below 1/2; `alt` alternates the signs. The rest of the series is less
than twice its first term. -/
def oddTerms (alt : Bool) (z2 : Enc) (n k : Nat) (t : Enc) : Enc :=
  match n with
  | 0 => (0, 2 * t.2 + 1)
  | n + 1 =>
    let term : Enc := (t.1 / (2 * k + 1), t.2 / (2 * k + 1) + 1)
    let rest := oddTerms alt z2 n (k + 1) (encMul t z2)
    if alt then encSub term rest else encAdd term rest

/-- artanh z, 0 < z ≤ 1/3. -/
def encArtanh (z : Enc) : Enc := oddTerms false (encMul z z) 250 0 z

/-- arctan of 1/n. -/
def encArctan (n : Nat) : Enc :=
  let z : Enc := (encOne / n, encOne / n + 1)
  oddTerms true (encMul z z) 180 0 z

/-- ln 2 = 2 · artanh(1/3). -/
def encLn2 : Enc :=
  let r := encArtanh (encOne / 3, encOne / 3 + 1)
  (2 * r.1, 2 * r.2)

/-- π = 16 · arctan(1/5) − 4 · arctan(1/239). -/
def encPi : Enc :=
  let a := encArctan 5
  let b := encArctan 239
  encSub (16 * a.1, 16 * a.2) (4 * b.1, 4 * b.2)

/-- The integer square root, bit by bit from bit `n` down. -/
def isqrtBits (n r v : Nat) : Nat :=
  match n with
  | 0 => r
  | n + 1 => let t := r + 2 ^ n
    isqrtBits n (if t * t ≤ v then t else r) v

/-- ⌊√v⌋. -/
def isqrt (v : Nat) : Nat := isqrtBits (Nat.log2 v / 2 + 1) 0 v

/-- √(8/π). -/
def encGeluScale : Enc :=
  let q := encDiv (8 * encOne, 8 * encOne) encPi
  (isqrt (q.1 * encOne), isqrt (q.2 * encOne) + 1)

/-! ### Rounding -/

/-- Rounds ± v · 2^e once to binary32, v strictly between the ends of an enclosure and not representable. Two ends that
round apart leave the result a free value (notes/assumptions/13): no operand is known for which they do. -/
def roundEnc (f : Fun) (x : BitVec 32) (neg : Bool) (v : Enc) (e : Int) : BitVec 32 × Byte :=
  let a := enc32 0 (.fin neg (4 * v.1 + 1) (e - 2))
  let b := enc32 0 (.fin neg (4 * v.2 - 1) (e - 2))
  if a = b then a else (Config.sfuTie f.code x, 0)

/-- A quotient a / b times 2^e, rounded once: the quotient carries a sticky last bit. -/
def roundQuot (neg : Bool) (a b : Nat) (e : Int) : BitVec 32 × Byte :=
  enc32 0 (.fin neg (2 * (a / b) + (if a % b = 0 then 0 else 1)) (e - 1))

/-- √(a / b) times 2^e, rounded once. -/
def roundRoot (a b : Nat) (e : Int) : BitVec 32 × Byte :=
  let r := isqrt (a / b)
  enc32 0 (.fin false (2 * r + (if r * r * b = a then 0 else 1)) (e - 1))

/-! ### The functions at a finite operand other than zero -/

/-- The magnitude m · 2^e at or above 2^k. -/
def atLeast (m : Nat) (e : Int) (k : Nat) : Bool := decide ((k : Int) ≤ magnitude m e)

/-- e^−t and so on lie below one unit of an enclosure for t ≥ 512. -/
def encNil : Enc := (0, 1)
def encUnit : Enc := (encOne - 1, encOne)

/-- e^x. -/
def expFin (x : BitVec 32) (neg : Bool) (m : Nat) (e : Int) : BitVec 32 × Byte :=
  if atLeast m e 9 then (if neg then (0, fUF) else (0x7F800000, fOF))
  else
    let v := encExp (encOf m e)
    roundEnc .exp x false (if neg then encDiv (encOne, encOne) v else v) (-(encBits : Int))

/-- ln x, x > 0: the mantissa in [1, 2), by 2 · artanh((m − 1) / (m + 1)), and the exponent times ln 2. -/
def logFin (x : BitVec 32) (m : Nat) (e : Int) : BitVec 32 × Byte :=
  let k := Nat.log2 m
  let one := 2 ^ k
  let n : Int := e + (k : Nat)
  let z : Enc := ((m - one) * encOne / (m + one), (m - one) * encOne / (m + one) + 1)
  let a : Enc := if m = one then (0, 0) else (let r := encArtanh z; (2 * r.1, 2 * r.2))
  let b : Enc := (n.natAbs * encLn2.1, n.natAbs * encLn2.2)
  if m = one && n = 0 then (0, 0)
  else if 0 ≤ n then roundEnc .log x false (encAdd a b) (-(encBits : Int))
  else roundEnc .log x true (encSub b a) (-(encBits : Int))

/-- tanh t, t > 0. -/
def encTanh (m : Nat) (e : Int) : Enc :=
  if atLeast m e 8 then encUnit
  else
    let v := encExp (encOf m (e + 1))
    encDiv (encSub v (encOne, encOne)) (encAdd v (encOne, encOne))

/-- 1 / (1 + e^−t) of ±t, from an enclosure of t below 512. -/
def encSigmoid (neg : Bool) (t : Enc) : Enc :=
  let v := encExp t
  let w := encAdd v (encOne, encOne)
  if neg then encDiv (encOne, encOne) w else encDiv v w

/-- 1 / (1 + e^−x). -/
def sigmoidOf (neg : Bool) (m : Nat) (e : Int) : Enc :=
  if atLeast m e 9 then (if neg then encNil else encUnit) else encSigmoid neg (encOf m e)

/-- The gate of GELU: 1 / (1 + e^−2u), u = √(2/π) · (x + 0.044715 · x³), so that GELU is x times it. -/
def geluGate (neg : Bool) (m : Nat) (e : Int) : Enc :=
  if atLeast m e 5 then (if neg then encNil else encUnit)
  else
    let t := encOf m e
    let c := encMul (encMul t t) t
    let u := encAdd t (c.1 * 44715 / 1000000, c.2 * 44715 / 1000000 + 1)
    encSigmoid neg (encMul encGeluScale u)

/-- A function at a finite operand ± m · 2^e, m > 0. -/
def funFin (f : Fun) (x : BitVec 32) (neg : Bool) (m : Nat) (e : Int) : BitVec 32 × Byte :=
  let bad : BitVec 32 × Byte := (nan32, fNV)
  match f with
  | .exp => expFin x neg m e
  | .log => if neg then bad else logFin x m e
  | .recip => roundQuot neg (2 ^ 80) m (-e - 80)
  | .rsqrt =>
    if neg then bad
    else if e % 2 = 0 then roundRoot (2 ^ 160) m (-(e / 2) - 80) else roundRoot (2 ^ 160) (2 * m) (-((e - 1) / 2) - 80)
  | .sqrt =>
    if neg then bad
    else if e % 2 = 0 then roundRoot (m * 2 ^ 160) 1 (e / 2 - 80) else roundRoot (2 * m * 2 ^ 160) 1 ((e - 1) / 2 - 80)
  | .tanh => roundEnc .tanh x neg (encTanh m e) (-(encBits : Int))
  | .sigmoid => roundEnc .sigmoid x false (sigmoidOf neg m e) (-(encBits : Int))
  | .silu => let g := sigmoidOf neg m e
    roundEnc .silu x neg (m * g.1, m * g.2) (e - (encBits : Int))
  | .gelu => let g := geluGate neg m e
    roundEnc .gelu x neg (m * g.1, m * g.2) (e - (encBits : Int))

/-! ### Special operands (R359) -/

/-- A function at an infinity. -/
def funInf (f : Fun) (neg : Bool) : BitVec 32 × Byte :=
  let one : BitVec 32 := 0x3F800000
  let inf : BitVec 32 := 0x7F800000
  match f, neg with
  | .exp, true => (0, 0)
  | .exp, false => (inf, 0)
  | .log, true => (nan32, fNV)
  | .log, false => (inf, 0)
  | .recip, true => (0x80000000, 0)
  | .recip, false => (0, 0)
  | .rsqrt, true => (nan32, fNV)
  | .rsqrt, false => (0, 0)
  | .sqrt, true => (nan32, fNV)
  | .sqrt, false => (inf, 0)
  | .tanh, true => (0xBF800000, 0)
  | .tanh, false => (one, 0)
  | .sigmoid, true => (0, 0)
  | .sigmoid, false => (one, 0)
  | .silu, true => (0x80000000, 0)
  | .silu, false => (inf, 0)
  | .gelu, true => (0x80000000, 0)
  | .gelu, false => (inf, 0)

/-- A function at a zero. -/
def funZero (f : Fun) (neg : Bool) : BitVec 32 × Byte :=
  let same : BitVec 32 := if neg then 0x80000000 else 0
  match f with
  | .exp => (0x3F800000, 0)
  | .log => (0xFF800000, 0)
  | .recip => (if neg then 0xFF800000 else 0x7F800000, 0)
  | .rsqrt => (if neg then 0xFF800000 else 0x7F800000, 0)
  | .sqrt => (same, 0)
  | .tanh => (same, 0)
  | .sigmoid => (0x3F000000, 0)
  | .silu => (same, 0)
  | .gelu => (same, 0)

/-- A special function of a binary32 operand, with its flags (R358, R359). -/
def sfu (f : Fun) (x : BitVec 32) : BitVec 32 × Byte :=
  match dec32 x with
  | .nan => (nan32, fNV)
  | .inf neg => funInf f neg
  | .fin neg m e => if m = 0 then funZero f neg else funFin f x neg m e

end Sys2Proof.Machine
end

