-- ==== Sys2Proof/WellFormed.lean ====
section
/-! DEFINITION. Which commands name a unit that the block has: the operands whose Lean type is wider than the spec's
range. The meaning of a command that is not well-formed is the fault noSuchUnit. -/

namespace Sys2Proof

/-- Hearth sites (R335, R336): 48 rows by 64 columns. -/
def siteOk (n : Nat) : Bool := n < 3072

/-- Power domains (R544). -/
def domainOk (d : Nat) : Bool := d < 36

/-- Mantel banks (R308). -/
def bankOk (b : Nat) : Bool := b < 6

/-- Draught gauges (R44). -/
def gaugeOk (g : Nat) : Bool := g < 96

/-- Engines with progress and purge reports (R481): 1 to 5. -/
def engineOk (e : BitVec 3) : Bool := 1 ≤ e.toNat && e.toNat ≤ 5

/-- The Hearth site at which a command is one firing of the unit. -/
def Instr.site? (i : Instr) : Option (BitVec 12) :=
  match i with
  | .mul x | .add x | .sub x | .dot x | .acc x | .imul x | .cmp x | .sel x | .drop x | .steer x | .merge x
  | .plog x | .logic x | .shift x | .iadd x | .minmax x | .cvt x | .idx x | .rep x | .exp x | .log x | .recip x
  | .rsqrt x | .sqrt x | .tanh x | .sigmoid x | .silu x | .gelu x | .tab x | .ldstRead x | .ldstWrite x | .rmw x
  | .stream x | .stb x | .fin x | .cout x | .flo x | .fli x | .kwait x | .kinc x | .siteRetire x => some x
  | _ => none

/-- Every unit number of a command lies in the spec's range. -/
def Instr.wf (i : Instr) : Bool :=
  match i.site? with
  | some x => siteOk x.toNat
  | none =>
    match i with
    | .purgeTimeout _ e d => engineOk e && domainOk d
    | .hangDetect _ e => engineOk e
    | .partitionCycleDone d _ _ | .supplyEvaluation d | .thermalTrip d | .domainTransitionDone d _
    | .gateDelayExpired d => domainOk d
    | .gaugeWindow g _ | .droopFlag g _ => gaugeOk g
    | .spareRowReplace b r => bankOk b && decide (r.row < 8192)
    | .bankRetire b => bankOk b
    | _ => true

end Sys2Proof
end

