-- ==== Sys2Proof/Machine/HearthUnits.lean ====
section
/-! DEFINITION. The firing of a Hearth unit (11): which unit stands at a site, the operands it consumes, and the one shared
operation that consumes and emits tokens under R339 and R342. -/

namespace Sys2Proof.Machine

/-! ### A unit and its operands -/

/-- A unit of a running configuration. -/
structure UnitIn where
  ctx : Nat
  cfg : HConfig
  site : Nat
  entry : UnitEntry
  run : HRun
  quota : Nat

/-- The unit with a kind and opcode at a site, of the configuration that runs there: its context is Closed or Open, and its
column group On. -/
def unitIn (s : State) (site kind op : Nat) : Option UnitIn :=
  (heldConfigs s).findSome? fun x =>
    match unitAt x.2 site with
    | none => none
    | some u =>
      if u.kind = kind && u.op = op && isLoaded s x.1 && domIsOn s (groupDomain (siteGroup site)) then
        some { ctx := x.1, cfg := x.2, site := site, entry := u, run := (ctxAt s x.1).run,
               quota := val s (cb x.1 7) 0xB }
      else none

/-- An operand: its data, its P bit, and the tag of the token; an immediate has P 1 and no tag (R339, R344). -/
structure Operand where
  data : BitVec 64
  p : Bool
  tag : Option (BitVec 14)

/-- Input `k` of a unit: its immediate, or the token at the head of its queue (R342). -/
def operand (u : UnitIn) (k : Nat) : Option Operand :=
  if isImm u.entry k then some { data := u.entry.imm, p := true, tag := none }
  else (queueAt u.run u.site k).head?.map fun t => { data := t.data, p := t.p, tag := some t.tag }

/-- The operands of several inputs; none where one of them has no token. -/
def operands (u : UnitIn) (ks : List Nat) : Option (List Operand) :=
  match ks with
  | [] => some []
  | k :: ks =>
    match operand u k, operands u ks with
    | some o, some l => some (o :: l)
    | _, _ => none

/-- The AND of the P bits of the data operands (R344). -/
def andP (os : List Operand) : Bool := os.all (·.p)

/-- The tag of the tokens consumed; that of the context in force where every operand is an immediate. -/
def firingTag (s : State) (u : UnitIn) (os : List Operand) : BitVec 14 := ((os.filterMap (·.tag)).head?).getD (ctxTag s u.ctx)

/-- Whether a firing would consume tokens with two different tags (R339). -/
def tagsDiffer (os : List Operand) : Bool :=
  match os.filterMap (·.tag) with
  | [] => false
  | t :: ts => ts.any (· != t)

/-! ### One firing -/

/-- What a firing does: the token it writes, if any, with its output; the flags of its results; the inputs whose head token
it consumes; the unit's own memory after it; accesses beyond its capacity and elements flushed; the tag where the inputs
give none; and what it does outside the grid. -/
structure Firing where
  emit : Option (Nat × BitVec 64 × Bool)
  flags : Byte
  pops : List Nat
  run : HRun
  outOfRange : Bool
  flushed : Nat
  tag : Option (BitVec 14)
  post : State → State

/-- A firing that consumes inputs and writes `d` with `p` to output 0. -/
def emits (u : UnitIn) (pops : List Nat) (d : BitVec 64) (p : Bool) (flags : Byte) : Firing :=
  { emit := some (0, d, p), flags := flags, pops := pops, run := u.run, outOfRange := false, flushed := 0, tag := none, post := id }

/-- Whether the outputs that a firing writes have room (R342). -/
def firingRoom (u : UnitIn) (f : Firing) : Bool :=
  match f.emit with
  | none => true
  | some e => outputRoom u.cfg u.run u.quota u.site e.1

/-- The running configuration after a firing. -/
def firedRun (u : UnitIn) (f : Firing) (tag : BitVec 14) : HRun :=
  let r := (f.pops.filter fun k => !isImm u.entry k).foldl (fun r k => popToken r u.site k) f.run
  match f.emit with
  | none => r
  | some e => emitToken u.cfg r u.site e.1 { tag := tag, p := e.2.2, data := e.2.1 }

/-- Sets the running configuration of a context. -/
def setRun (s : State) (c : Nat) (r : HRun) : State := setCtx s c { ctxAt s c with run := r }

/-- Counts an access beyond the capacity of a MEM unit, and the elements that a block flushed (R363, R365). -/
def countMem (s : State) (c : Nat) (outOfRange : Bool) (flushed : Nat) : State :=
  let s := if outOfRange then bump s (cb c 7) 0x22 else s
  if flushed = 0 then s else bumpBy 64 s (cb c 7) 0x21 flushed

/-- A firing happens: tokens move, flags stick and the Hearth makes progress (R342, R347, R481). -/
def fireNow (s : State) (u : UnitIn) (f : Firing) (tag : BitVec 14) : State :=
  f.post (progress (countMem (stick (setRun s u.ctx (firedRun u f tag)) (cb u.ctx 7) 0x20 f.flags) u.ctx f.outOfRange f.flushed) u.ctx 4)

/-- Whether a firing of the unit reaches a resource that R24 names: the memory of a MEM unit, or a template through COUT. -/
def reachesResource (u : UnitEntry) : Bool := u.kind = 4 || (u.kind = 5 && u.op = 2)

/-- The context of the tokens that a firing would consume, where it is not the one whose resource the unit reaches (R24). -/
def foreignTo (s : State) (u : UnitIn) (os : List Operand) : Option Nat :=
  let c := tagCtx (firingTag s u os)
  if reachesResource u.entry && c ≠ u.ctx then some c else none

/-- A unit fires with the operands of its inputs, when `go` gives a firing and there is room for what it writes; tokens with
two different tags are an isolation fault of the unit's context (R339, R342). An access by the tokens of another context is
not performed, and is an isolation fault of theirs (R24, log 45). -/
def fireUnit (s : State) (u : UnitIn) (ins : List Nat) (go : List Operand → Option Firing) : State :=
  match operands u ins with
  | none => s
  | some os =>
    match go os with
    | none => s
    | some f =>
      if !firingRoom u f then s
      else if tagsDiffer os then enterRecovering s u.ctx 0x0203
      else
        match foreignTo s u os with
        | some c => enterRecovering s c 0x0203
        | none => fireNow s u f (f.tag.getD (firingTag s u os))

/-- The unit of a kind and opcode at a site fires, if there is one. -/
def fireAt (s : State) (site kind op : Nat) (ins : List Nat) (go : UnitIn → List Operand → Option Firing) : State :=
  match unitIn s site kind op with
  | none => s
  | some u => fireUnit s u ins (go u)

/-- A command at a Hearth site: a site that the grid does not have is no unit. -/
def atSite (site : BitVec 12) (s : State) : Host.Outcome State Fault Refusal :=
  if siteOk site.toNat then .next s else .fault .noSuchUnit

/-! ### Operand forms (R338, R340, R348) -/

/-- Whether operand `k` (0 A, 1 B) is a binary16 in its low bits (R340). -/
def isHalf (u : UnitEntry) (k : Nat) : Bool := bit u.flags.toNat (3 + k)

/-- Operand `k` read as binary32, widened where the unit's entry says so, with the flags of the conversion. -/
def asF32 (u : UnitEntry) (k : Nat) (d : BitVec 64) : BitVec 32 × Byte :=
  if isHalf u k then widen (d.setWidth 16) else (d.setWidth 32, 0)

/-- The lanes of operand `k` of a MAC unit in its lane mode, as binary32 (R348). -/
def macLanes (u : UnitEntry) (k : Nat) (d : BitVec 64) : List (BitVec 32 × Byte) :=
  match u.mode with
  | 0 => [asF32 u k d]
  | 1 => [(d.setWidth 32, 0), ((d >>> 32).setWidth 32, 0)]
  | _ => (List.range 4).map fun j => widen ((d >>> (16 * j)).setWidth 16)

/-- Lanes as the DATA of a token. -/
def packLanes (l : List (BitVec 32)) : BitVec 64 := BitVec.ofNat 64 (leNat (l.flatMap fun x => toLe 4 x.toNat))

/-- A binary32 as the DATA of a token. -/
def dataOf32 (x : BitVec 32) : BitVec 64 := x.setWidth 64

/-- The types of R352. -/
inductive CmpTy where
  | f32
  | i64
  | u64
  deriving DecidableEq, Repr

/-- The type of a type field of R352. -/
def cmpTy (n : Nat) : CmpTy := match n with | 0 => .f32 | 1 => .i64 | _ => .u64

/-- The order of two operands: none where either is NaN (R352). -/
def orderOf (t : CmpTy) (a b : BitVec 64) : Option Ordering :=
  match t with
  | .f32 =>
    let x := dec32 (a.setWidth 32)
    let y := dec32 (b.setWidth 32)
    if x = .nan || y = .nan then none else some (cmpVal x y)
  | .i64 => some (compare a.toInt b.toInt)
  | .u64 => some (compare a.toNat b.toNat)

/-- The conditions of R352. -/
def condHolds (cond : Nat) (o : Option Ordering) : Bool :=
  match cond, o with
  | 0, o => o == some .lt
  | 1, o => o == some .lt || o == some .eq
  | 2, o => o == some .eq
  | 3, o => o != some .eq
  | 4, o => o == some .gt || o == some .eq
  | 5, o => o == some .gt
  | 6, o => o.isNone
  | _, o => o.isSome

/-! ### Partial sums of DOT and ACC (R350) -/

/-- Term `x` enters the partial sums at level `l`. -/
def sumPush (n : Nat) (sums : List (Nat × BitVec 32)) (l : Nat) (x : BitVec 32) (f : Byte) : List (Nat × BitVec 32) × Byte :=
  match n with
  | 0 => (sums, f)
  | n + 1 =>
    match (sums.find? fun y => y.1 = l).map (·.2) with
    | none => (tabPut sums l x, f)
    | some y =>
      let r := add32 y x
      sumPush n (tabErase sums l) (l + 1) r.1 (f ||| r.2)

/-- The terms of one token enter the partial sums. -/
def sumTerms (sums : List (Nat × BitVec 32)) (terms : List (BitVec 32 × Byte)) : List (Nat × BitVec 32) × Byte :=
  terms.foldl (fun a t => let r := sumPush 18 a.1 0 t.1 (a.2 ||| t.2); (r.1, r.2)) (sums, 0)

/-- The result of the partial sums: the occupied levels from the lowest, each sum the left operand. -/
def sumResult (sums : List (Nat × BitVec 32)) : BitVec 32 × Byte :=
  match sums with
  | [] => (0, 0)
  | x :: rest => rest.foldl (fun a y => let r := add32 y.2 a.1; (r.1, a.2 ||| r.2)) (x.2, 0)

/-- A DOT or ACC unit takes the terms of one token, and emits its result with the last (R349, R350). -/
def accumulate (u : UnitIn) (pops : List Nat) (terms : List (BitVec 32 × Byte)) (p : Bool) : Firing :=
  let n := tabGet 0 u.run.taken u.site
  let q := tabGet true u.run.andP u.site && p
  let a := sumTerms (tabGet [] u.run.sums u.site) terms
  if n = u.entry.count then
    let r := sumResult a.1
    { emits u pops (dataOf32 r.1) q (a.2 ||| r.2) with
      run := { u.run with sums := tabSet [] u.run.sums u.site [], taken := tabSet 0 u.run.taken u.site 0,
                          andP := tabSet true u.run.andP u.site true } }
  else
    { emits u pops 0 q a.2 with
      emit := none,
      run := { u.run with sums := tabSet [] u.run.sums u.site a.1, taken := tabSet 0 u.run.taken u.site (n + 1),
                          andP := tabSet true u.run.andP u.site q } }

/-! ### Triggers (R343) -/

/-- A unit that emits COUNT + 1 tokens per trigger: token `k` with data and P, the trigger consumed with the last. -/
def perTrigger (u : UnitIn) (token : Nat → BitVec 64 × Bool × Byte) : Firing :=
  let k := tabGet 0 u.run.emitted u.site
  let last := u.entry.count ≤ k
  let t := token k
  { emits u (if last then [0] else []) t.1 t.2.1 t.2.2 with
    run := { u.run with emitted := tabSet 0 u.run.emitted u.site (if last then 0 else k + 1) } }

/-! ### MEM units (R361–R365) -/

/-- Byte `o` of the memory of the unit at a site. -/
def memByte (r : HRun) (site o : Nat) : Byte := tabGet (0 : BitVec 8) r.mem (16384 * site + o)

/-- `n` bytes of the memory of the unit at a site. -/
def memBytes (r : HRun) (site o n : Nat) : Bytes := (List.range n).map fun i => memByte r site (o + i)

/-- Writes bytes of the memory of the unit at a site. -/
def setMemBytes (r : HRun) (site o : Nat) (bs : Bytes) : HRun := { r with mem := memWriteN r.mem (16384 * site + o) bs }

/-- Words or elements that a MEM unit holds in its mode. -/
def memCapacity (mode : Nat) : Nat :=
  match mode with
  | 15 => 2048
  | 0 => 4096
  | 1 => 8192
  | 3 => 20960
  | _ => 15872

/-- Bytes of an interleaved block of a mode. -/
def memBlock (f : Short) : Nat := 1 + blockBytes f

/-- The value at an address below the capacity, as a load emits it, with the flags of its decoding. -/
def memLoad (u : UnitIn) (r : HRun) (a : Nat) : BitVec 64 × Byte :=
  match u.entry.mode with
  | 15 => (BitVec.ofNat 64 (leNat (memBytes r u.site (8 * a) 8)), 0)
  | 0 => (BitVec.ofNat 64 (leNat (memBytes r u.site (4 * a) 4)), 0)
  | 1 =>
    let w := widen (BitVec.ofNat 16 (leNat (memBytes r u.site (2 * a) 2)))
    (dataOf32 w.1, w.2)
  | m =>
    match shortOf m with
    | none => (0, 0)
    | some f =>
      let b := memBlock f * (a / 32)
      let w := decBlock f (memByte r u.site b).toNat (elemAt f (memBytes r u.site (b + 1) (blockBytes f)) (a % 32))
      (dataOf32 w.1, w.2)

/-- What an access beyond the capacity gives: the canonical NaN in an element mode, zero in word mode (R365). -/
def memAbsent (mode : Nat) : BitVec 64 := if mode = 15 then 0 else dataOf32 nan32

/-- A load as it leaves the unit: value, P, flags, and whether it was out of range. -/
def memRead1 (u : UnitIn) (r : HRun) (a : Nat) (p : Bool) : BitVec 64 × Bool × Byte × Bool :=
  if a < memCapacity u.entry.mode then
    let v := memLoad u r a
    (v.1, p, v.2, false)
  else (memAbsent u.entry.mode, false, 0, true)

/-- Stores DATA at an address below the capacity, as the mode takes it (R361). -/
def memStore (u : UnitIn) (r : HRun) (a : Nat) (d : BitVec 64) : HRun × Byte :=
  match u.entry.mode with
  | 15 => (setMemBytes r u.site (8 * a) (toLe 8 d.toNat), 0)
  | 0 =>
    let v := asF32 u.entry 1 d
    (setMemBytes r u.site (4 * a) (toLe 4 v.1.toNat), v.2)
  | _ =>
    if isHalf u.entry 1 then (setMemBytes r u.site (2 * a) (toLe 2 (d.setWidth 16 : BitVec 16).toNat), 0)
    else
      let v := narrow (d.setWidth 32)
      (setMemBytes r u.site (2 * a) (toLe 2 v.1.toNat), v.2)

end Sys2Proof.Machine
end

