-- ==== Sys2Proof/Machine/Hearth.lean ====
section
/-! DEFINITION. The opcodes of the Hearth's units (11): one meaning each, over the shared firing of HearthUnits. -/

namespace Sys2Proof.Machine

/-! ### MAC (R349) -/

/-- A firing over the lanes of A and B. -/
def laneFiring (f : BitVec 32 → BitVec 32 → BitVec 32 × Byte) (u : UnitIn) (os : List Operand) : Option Firing :=
  match os with
  | [a, b] =>
    let x := macLanes u.entry 0 a.data
    let y := macLanes u.entry 1 b.data
    let r := (x.zip y).map fun l => f l.1.1 l.2.1
    some (emits u [0, 1] (packLanes (r.map (·.1))) (andP os) ((x ++ y ++ r).foldl (fun m l => m ||| l.2) 0))
  | _ => none

/-- The product of two binary32 (R215). -/
def mulF32 (a b : BitVec 32) : BitVec 32 × Byte := mul32 (dec32 a) (dec32 b)

/-- MUL. -/
def execMul (site : BitVec 12) (s : State) : Host.Outcome State Fault Refusal :=
  atSite site (fireAt s site.toNat 1 1 [0, 1] (laneFiring mulF32))

/-- ADD. -/
def execAdd (site : BitVec 12) (s : State) : Host.Outcome State Fault Refusal :=
  atSite site (fireAt s site.toNat 1 2 [0, 1] (laneFiring add32))

/-- SUB. -/
def execSub (site : BitVec 12) (s : State) : Host.Outcome State Fault Refusal :=
  atSite site (fireAt s site.toNat 1 3 [0, 1] (laneFiring fun a b => add32 a (neg32 b)))

/-- DOT: the products of one token pair enter the partial sums. -/
def dotFiring (u : UnitIn) (os : List Operand) : Option Firing :=
  match os with
  | [a, b] =>
    let x := macLanes u.entry 0 a.data
    let y := macLanes u.entry 1 b.data
    some (accumulate u [0, 1] ((x.zip y).map fun l =>
      let r := mulF32 l.1.1 l.2.1
      (r.1, l.1.2 ||| l.2.2 ||| r.2)) (andP os))
  | _ => none

/-- DOT. -/
def execDot (site : BitVec 12) (s : State) : Host.Outcome State Fault Refusal :=
  atSite site (fireAt s site.toNat 1 4 [0, 1] dotFiring)

/-- ACC: the lanes of one token enter the partial sums. -/
def accFiring (u : UnitIn) (os : List Operand) : Option Firing :=
  match os with
  | [a] => some (accumulate u [0] (macLanes u.entry 0 a.data) a.p)
  | _ => none

/-- ACC. -/
def execAcc (site : BitVec 12) (s : State) : Host.Outcome State Fault Refusal :=
  atSite site (fireAt s site.toNat 1 5 [0] accFiring)

/-- A firing over the 64-bit data of A and B. -/
def wordFiring (f : BitVec 64 → BitVec 64 → BitVec 64) (u : UnitIn) (os : List Operand) : Option Firing :=
  match os with
  | [a, b] => some (emits u [0, 1] (f a.data b.data) (andP os) 0)
  | _ => none

/-- IMUL. -/
def execImul (site : BitVec 12) (s : State) : Host.Outcome State Fault Refusal :=
  atSite site (fireAt s site.toNat 1 6 [0, 1] (wordFiring (· * ·)))

/-! ### PRED (R351–R357) -/

/-- Operand `k` as a compare of type `t` reads it: a binary32 widened where the entry says so, or the whole word. -/
def cmpOperand (u : UnitEntry) (t : CmpTy) (k : Nat) (d : BitVec 64) : BitVec 64 × Byte :=
  if t = .f32 then (dataOf32 (asF32 u k d).1, (asF32 u k d).2) else (d, 0)

/-- CMP: DATA = A, P = the condition and both P bits; no flag (R351, R352). -/
def cmpFiring (u : UnitIn) (os : List Operand) : Option Firing :=
  match os with
  | [a, b] =>
    let t := cmpTy (bits u.entry.sel 4 3)
    let x := (cmpOperand u.entry t 0 a.data).1
    let y := (cmpOperand u.entry t 1 b.data).1
    some (emits u [0, 1] x (condHolds (u.entry.sel % 8) (orderOf t x y) && andP os) 0)
  | _ => none

/-- CMP. -/
def execCmp (site : BitVec 12) (s : State) : Host.Outcome State Fault Refusal :=
  atSite site (fireAt s site.toNat 2 1 [0, 1] cmpFiring)

/-- SEL: the token of A or of B, chosen by the P bit of C; both are consumed. -/
def selFiring (u : UnitIn) (os : List Operand) : Option Firing :=
  match os with
  | [a, b, c] =>
    let t := if c.p then a else b
    some (emits u [0, 1, 2] t.data t.p 0)
  | _ => none

/-- SEL. -/
def execSel (site : BitVec 12) (s : State) : Host.Outcome State Fault Refusal :=
  atSite site (fireAt s site.toNat 2 2 [0, 1, 2] selFiring)

/-- DROP: the token of A passes, or is consumed. -/
def dropFiring (u : UnitIn) (os : List Operand) : Option Firing :=
  match os with
  | [a, c] =>
    let f := emits u [0, 2] a.data a.p 0
    some (if c.p then f else { f with emit := none })
  | _ => none

/-- DROP. -/
def execDrop (site : BitVec 12) (s : State) : Host.Outcome State Fault Refusal :=
  atSite site (fireAt s site.toNat 2 3 [0, 2] dropFiring)

/-- STEER: the token of A goes to O0 or to O1. -/
def steerFiring (u : UnitIn) (os : List Operand) : Option Firing :=
  match os with
  | [a, c] => some { emits u [0, 2] a.data a.p 0 with emit := some (if c.p then 0 else 1, a.data, a.p) }
  | _ => none

/-- STEER. -/
def execSteer (site : BitVec 12) (s : State) : Host.Outcome State Fault Refusal :=
  atSite site (fireAt s site.toNat 2 4 [0, 2] steerFiring)

/-- The token of a data input passes a MERGE, which counts feedback takes in a row (R357). -/
def mergeFiring (takes : Nat) (k : Nat) (u : UnitIn) (os : List Operand) : Option Firing :=
  match os with
  | [_, x] => some { emits u [2, k] x.data x.p 0 with run := { u.run with takes := tabSet 0 u.run.takes u.site takes } }
  | _ => none

/-- Whether a feedback take would pass ITMAX (R357). -/
def loopSpent (u : UnitIn) : Bool := u.entry.count ≠ 0xFFFF && u.entry.count ≤ tabGet 0 u.run.takes u.site

/-- MERGE: the control at C selects the one data input that is consumed; a feedback take past ITMAX is a loop bound fault. -/
def execMerge (site : BitVec 12) (s : State) : Host.Outcome State Fault Refusal :=
  atSite site (
    match unitIn s site.toNat 2 5 with
    | none => s
    | some u =>
      match operand u 2 with
      | none => s
      | some c =>
        if !c.p then fireUnit s u [2, 1] (mergeFiring 0 1 u)
        else if (operand u 0).isSome && loopSpent u then enterRecovering (bump32 s (cb u.ctx 7) 0x23) u.ctx 0x0205
        else fireUnit s u [2, 0] (mergeFiring (tabGet 0 u.run.takes u.site + 1) 0 u))

/-- PLOG: DATA = A, P = bit (2 · A.P + B.P) of SEL. -/
def plogFiring (u : UnitIn) (os : List Operand) : Option Firing :=
  match os with
  | [a, b] => some (emits u [0, 1] a.data (bit (u.entry.sel % 16) (2 * a.p.toNat + b.p.toNat)) 0)
  | _ => none

/-- PLOG. -/
def execPlog (site : BitVec 12) (s : State) : Host.Outcome State Fault Refusal :=
  atSite site (fireAt s site.toNat 2 6 [0, 1] plogFiring)

/-- LOGIC by its selector. -/
def logicOf (sel : Nat) (a b : BitVec 64) : BitVec 64 :=
  match sel with
  | 0 => a &&& b
  | 1 => a ||| b
  | 2 => a ^^^ b
  | 3 => a &&& ~~~b
  | _ => b

/-- LOGIC. -/
def execLogic (site : BitVec 12) (s : State) : Host.Outcome State Fault Refusal :=
  atSite site (fireAt s site.toNat 2 7 [0, 1] fun u => wordFiring (logicOf u.entry.sel) u)

/-- SHIFT by its selector; the count is B[5:0]. -/
def shiftOf (sel : Nat) (a b : BitVec 64) : BitVec 64 :=
  let n := b.toNat % 64
  match sel with
  | 0 => a <<< n
  | 1 => a >>> n
  | _ => a.sshiftRight n

/-- SHIFT. -/
def execShift (site : BitVec 12) (s : State) : Host.Outcome State Fault Refusal :=
  atSite site (fireAt s site.toNat 2 8 [0, 1] fun u => wordFiring (shiftOf u.entry.sel) u)

/-- IADD by its selector. -/
def iaddOf (sel : Nat) (a b : BitVec 64) : BitVec 64 := if sel = 0 then a + b else a - b

/-- IADD. -/
def execIadd (site : BitVec 12) (s : State) : Host.Outcome State Fault Refusal :=
  atSite site (fireAt s site.toNat 2 9 [0, 1] fun u => wordFiring (iaddOf u.entry.sel) u)

/-- The smaller or greater of two operands (R352): a NaN gives the canonical NaN with NV; −0 is below +0. -/
def minMax (t : CmpTy) (greater : Bool) (a b : BitVec 64) : BitVec 64 × Byte :=
  match orderOf t a b with
  | none => (dataOf32 nan32, fNV)
  | some .lt => (if greater then b else a, 0)
  | some .gt => (if greater then a else b, 0)
  | some .eq => (if t = .f32 then (if greater then a &&& b else a ||| b) else a, 0)

/-- MINMAX. -/
def minMaxFiring (u : UnitIn) (os : List Operand) : Option Firing :=
  match os with
  | [a, b] =>
    let t := cmpTy (bits u.entry.sel 2 1)
    let x := cmpOperand u.entry t 0 a.data
    let y := cmpOperand u.entry t 1 b.data
    let r := minMax t (bit u.entry.sel 0) x.1 y.1
    some (emits u [0, 1] r.1 (andP os) (x.2 ||| y.2 ||| r.2))
  | _ => none

/-- MINMAX. -/
def execMinmax (site : BitVec 12) (s : State) : Host.Outcome State Fault Refusal :=
  atSite site (fireAt s site.toNat 2 10 [0, 1] minMaxFiring)

/-- A binary32 as an INT64 (R353): ties to even, a NaN 0 and out of range the nearest limit, each with NV. -/
def toInt64 (x : BitVec 32) : BitVec 64 × Byte :=
  match dec32 x with
  | .nan => (0, fNV)
  | .inf neg => (if neg then 0x8000000000000000 else 0x7FFFFFFFFFFFFFFF, fNV)
  | v =>
    let n := (toInt v).getD 0
    if n < -(2 ^ 63 : Nat) then (0x8000000000000000, fNV)
    else if (2 ^ 63 : Nat) ≤ n then (0x7FFFFFFFFFFFFFFF, fNV)
    else (BitVec.ofInt 64 n, 0)

/-- The conversions of R353. -/
def convert (u : UnitEntry) (d : BitVec 64) : BitVec 64 × Byte :=
  match u.sel with
  | 0 => let r := widen (d.setWidth 16); (dataOf32 r.1, r.2)
  | 1 => let x := asF32 u 0 d; let r := narrow x.1; (r.1.setWidth 64, x.2 ||| r.2)
  | 2 => let r := enc32 0 (intVal d.toInt); (dataOf32 r.1, r.2)
  | 3 => let r := enc16 0 (intVal d.toInt); (r.1.setWidth 64, r.2)
  | 4 => let x := asF32 u 0 d; let r := toInt64 x.1; (r.1, x.2 ||| r.2)
  | _ => let r := enc32 0 (intVal (d.toNat : Int)); (dataOf32 r.1, r.2)

/-- CVT. -/
def cvtFiring (u : UnitIn) (os : List Operand) : Option Firing :=
  match os with
  | [a] => let r := convert u.entry a.data; some (emits u [0] r.1 a.p r.2)
  | _ => none

/-- CVT. -/
def execCvt (site : BitVec 12) (s : State) : Host.Outcome State Fault Refusal :=
  atSite site (fireAt s site.toNat 2 11 [0] cvtFiring)

/-- IDX: the indices 0 to COUNT, the last with P 0 (R356). -/
def idxFiring (u : UnitIn) (_ : List Operand) : Option Firing :=
  some (perTrigger u fun k => (BitVec.ofNat 64 k, decide (k < u.entry.count), 0))

/-- IDX. -/
def execIdx (site : BitVec 12) (s : State) : Host.Outcome State Fault Refusal :=
  atSite site (fireAt s site.toNat 2 12 [0] idxFiring)

/-- REP: COUNT + 1 copies of the trigger (R356). -/
def repFiring (u : UnitIn) (os : List Operand) : Option Firing :=
  match os with
  | [a] => some (perTrigger u fun _ => (a.data, a.p, 0))
  | _ => none

/-- REP. -/
def execRep (site : BitVec 12) (s : State) : Host.Outcome State Fault Refusal :=
  atSite site (fireAt s site.toNat 2 13 [0] repFiring)

/-! ### SFU (R358–R360) -/

/-- A function of A. -/
def sfuFiring (f : Fun) (u : UnitIn) (os : List Operand) : Option Firing :=
  match os with
  | [a] =>
    let x := asF32 u.entry 0 a.data
    let r := sfu f x.1
    some (emits u [0] (dataOf32 r.1) a.p (x.2 ||| r.2))
  | _ => none

/-- EXP. -/
def execExp (site : BitVec 12) (s : State) : Host.Outcome State Fault Refusal :=
  atSite site (fireAt s site.toNat 3 1 [0] (sfuFiring .exp))

/-- LOG. -/
def execLog (site : BitVec 12) (s : State) : Host.Outcome State Fault Refusal :=
  atSite site (fireAt s site.toNat 3 2 [0] (sfuFiring .log))

/-- RECIP. -/
def execRecip (site : BitVec 12) (s : State) : Host.Outcome State Fault Refusal :=
  atSite site (fireAt s site.toNat 3 3 [0] (sfuFiring .recip))

/-- RSQRT. -/
def execRsqrt (site : BitVec 12) (s : State) : Host.Outcome State Fault Refusal :=
  atSite site (fireAt s site.toNat 3 4 [0] (sfuFiring .rsqrt))

/-- SQRT. -/
def execSqrt (site : BitVec 12) (s : State) : Host.Outcome State Fault Refusal :=
  atSite site (fireAt s site.toNat 3 5 [0] (sfuFiring .sqrt))

/-- TANH. -/
def execTanh (site : BitVec 12) (s : State) : Host.Outcome State Fault Refusal :=
  atSite site (fireAt s site.toNat 3 6 [0] (sfuFiring .tanh))

/-- SIGMOID. -/
def execSigmoid (site : BitVec 12) (s : State) : Host.Outcome State Fault Refusal :=
  atSite site (fireAt s site.toNat 3 7 [0] (sfuFiring .sigmoid))

/-- SILU. -/
def execSilu (site : BitVec 12) (s : State) : Host.Outcome State Fault Refusal :=
  atSite site (fireAt s site.toNat 3 8 [0] (sfuFiring .silu))

/-- GELU. -/
def execGelu (site : BitVec 12) (s : State) : Host.Outcome State Fault Refusal :=
  atSite site (fireAt s site.toNat 3 9 [0] (sfuFiring .gelu))

/-- TAB: the entry at min(A, 255) of the unit's table (R360). -/
def tabFiring (u : UnitIn) (os : List Operand) : Option Firing :=
  match os with
  | [a] =>
    let i := min a.data.toNat 255
    some (emits u [0] (BitVec.ofNat 64 (leNat (memBytes u.run u.site (8 * i) 8))) a.p 0)
  | _ => none

/-- TAB. -/
def execTab (site : BitVec 12) (s : State) : Host.Outcome State Fault Refusal :=
  atSite site (fireAt s site.toNat 3 0x10 [0] tabFiring)

/-! ### MEM (R363–R365) -/

/-- LDST, write side: the address leaves O1 as the completion. -/
def writeFiring (u : UnitIn) (os : List Operand) : Option Firing :=
  match os with
  | [b, d] =>
    let a := b.data.toNat
    if a < memCapacity u.entry.mode then
      let w := memStore u u.run a d.data
      some { emits u [1, 2] 0 true w.2 with emit := some (1, b.data, andP os), run := w.1 }
    else some { emits u [1, 2] 0 true 0 with emit := some (1, b.data, false), outOfRange := true }
  | _ => none

/-- Whether the write side of an LDST unit can fire: it then goes before the read side (R364). -/
def writeReady (u : UnitIn) : Bool :=
  match operands u [1, 2] with
  | none => false
  | some _ => outputRoom u.cfg u.run u.quota u.site 1

/-- LDST, read side. -/
def readFiring (u : UnitIn) (os : List Operand) : Option Firing :=
  match os with
  | [a] =>
    if writeReady u then none
    else
      let v := memRead1 u u.run a.data.toNat a.p
      some { emits u [0] v.1 v.2.1 v.2.2.1 with outOfRange := v.2.2.2 }
  | _ => none

/-- LDST, the read side fires. -/
def execLdstRead (site : BitVec 12) (s : State) : Host.Outcome State Fault Refusal :=
  atSite site (fireAt s site.toNat 4 1 [0] readFiring)

/-- LDST, the write side fires. -/
def execLdstWrite (site : BitVec 12) (s : State) : Host.Outcome State Fault Refusal :=
  atSite site (fireAt s site.toNat 4 1 [1, 2] writeFiring)

/-- The new contents of an element or word that RMW adds to, and the value it emits (R363, R211). -/
def rmwValue (u : UnitIn) (a : Nat) (d : BitVec 64) : Bytes × BitVec 64 × Byte :=
  match u.entry.mode with
  | 15 =>
    let v := BitVec.ofNat 64 (leNat (memBytes u.run u.site (8 * a) 8)) + d
    (toLe 8 v.toNat, v, 0)
  | 0 =>
    let b := asF32 u.entry 1 d
    let v := add32 (BitVec.ofNat 32 (leNat (memBytes u.run u.site (4 * a) 4))) b.1
    (toLe 4 v.1.toNat, dataOf32 v.1, b.2 ||| v.2)
  | _ =>
    let m := widen (BitVec.ofNat 16 (leNat (memBytes u.run u.site (2 * a) 2)))
    let b := asF32 u.entry 1 d
    let v := sumTo16 m.1 b.1
    (toLe 2 v.1.toNat, dataOf32 (widen v.1).1, m.2 ||| b.2 ||| v.2)

/-- Bytes of a word or element of the modes that RMW takes. -/
def memWidth (mode : Nat) : Nat := match mode with | 15 => 8 | 0 => 4 | _ => 2

/-- RMW: memory at A becomes memory + B, and the new value is emitted. -/
def rmwFiring (u : UnitIn) (os : List Operand) : Option Firing :=
  match os with
  | [x, b] =>
    let a := x.data.toNat
    if a < memCapacity u.entry.mode then
      let v := rmwValue u a b.data
      some { emits u [0, 1] v.2.1 (andP os) v.2.2 with run := setMemBytes u.run u.site (memWidth u.entry.mode * a) v.1 }
    else some { emits u [0, 1] (memAbsent u.entry.mode) false 0 with outOfRange := true }
  | _ => none

/-- RMW. -/
def execRmw (site : BitVec 12) (s : State) : Host.Outcome State Fault Refusal :=
  atSite site (fireAt s site.toNat 4 2 [0, 1] rmwFiring)

/-- Element `k` of a STREAM: SEL + A.DATA + k · IMM[15:0], as a UINT64 address (R362, R363). -/
def streamAddress (u : UnitEntry) (a : BitVec 64) (k : Nat) : Nat :=
  (BitVec.ofNat 64 u.sel + a + BitVec.ofInt 64 ((u.imm.setWidth 16).toInt * k)).toNat

/-- STREAM: COUNT + 1 loads per trigger. -/
def streamFiring (u : UnitIn) (os : List Operand) : Option Firing :=
  match os with
  | [a] =>
    let k := tabGet 0 u.run.emitted u.site
    let v := memRead1 u u.run (streamAddress u.entry a.data k) a.p
    some { perTrigger u (fun _ => (v.1, v.2.1, v.2.2.1)) with outOfRange := v.2.2.2 }
  | _ => none

/-- STREAM. -/
def execStream (site : BitVec 12) (s : State) : Host.Outcome State Fault Refusal :=
  atSite site (fireAt s site.toNat 4 3 [0] streamFiring)

/-- STB takes an element that does not end a block: C alone is consumed. -/
def stbTake (x : BitVec 32) (c : Operand) (f : Byte) (u : UnitIn) : Firing :=
  { emits u [2] 0 true f with
    emit := none,
    run := { u.run with
      block := tabSet [] u.run.block u.site (tabGet [] u.run.block u.site ++ [x]),
      runAt := tabSet 0 u.run.runAt u.site (tabGet 0 u.run.runAt u.site + 1),
      andP := tabSet true u.run.andP u.site (tabGet true u.run.andP u.site && c.p) } }

/-- STB writes the block that an element ends: its index is that of the run's first B plus the block's place in the run
(R363), and B is consumed with it (R343). -/
def stbWrite (g : Short) (x : BitVec 32) (f : Byte) (u : UnitIn) (b c : Operand) : Firing :=
  let at_ := tabGet 0 u.run.runAt u.site
  let base := if at_ < 32 then b.data else tabGet 0 u.run.runBase u.site
  let idx := base + BitVec.ofNat 64 (at_ / 32)
  let last := u.entry.count ≤ at_
  let p := tabGet true u.run.andP u.site && c.p && b.p
  let run := { u.run with
    block := tabSet [] u.run.block u.site [],
    runAt := tabSet 0 u.run.runAt u.site (if last then 0 else at_ + 1),
    runBase := tabSet 0 u.run.runBase u.site (if last then 0 else base),
    andP := tabSet true u.run.andP u.site true }
  if idx.toNat < memCapacity u.entry.mode / 32 then
    let e := encBlock g (tabGet [] u.run.block u.site ++ [x])
    let run := setMemBytes run u.site (memBlock g * idx.toNat) (BitVec.ofNat 8 e.scale :: elemBytes g e.elems)
    { emits u [1, 2] 0 true (f ||| e.flags) with emit := some (1, idx, p), run := run, flushed := e.flushed }
  else { emits u [1, 2] 0 true 0 with emit := some (1, idx, false), run := run, outOfRange := true }

/-- STB: an element enters the block now filling; the last of a block or of a run writes it. -/
def execStb (site : BitVec 12) (s : State) : Host.Outcome State Fault Refusal :=
  atSite site (
    match unitIn s site.toNat 4 4 with
    | none => s
    | some u =>
      match shortOf u.entry.mode with
      | none => s
      | some g =>
        let at_ := tabGet 0 u.run.runAt u.site
        let ends := at_ % 32 = 31 || u.entry.count ≤ at_
        fireUnit s u (if ends then [1, 2] else [2]) fun os =>
          match os with
          | [c] => let x := asF32 u.entry 1 c.data; some (stbTake x.1 c x.2 u)
          | [b, c] => let x := asF32 u.entry 1 c.data; some (stbWrite g x.1 x.2 u b c)
          | _ => none)

/-! ### EDGE (R367–R370) -/

/-- The token that a FIN unit emits for a message (R368). -/
def finToken (x : Msg) (sel : Nat) : BitVec 64 × Bool :=
  if sel < 0x100 then
    match x.features[sel]? with
    | some f => (dataOf32 f.1, !f.2)
    | none => (dataOf32 (Config.absentFeature sel), false)
  else if sel < 0x104 then
    (BitVec.ofNat 64 (maskOf ((List.range 64).filter fun i =>
      match x.features[64 * (sel - 0x100) + i]? with | some f => f.2 | none => true)), true)
  else match sel with
    | 0x110 => (BitVec.ofNat 64 (x.instr.getD 0), true)
    | 0x111 => (BitVec.ofNat 64 x.layout, true)
    | 0x112 => (x.ndp.setWidth 64, true)
    | 0x113 => ((x.seq.getD 0).setWidth 64, true)
    | _ => (BitVec.ofNat 64 x.port, true)

/-- FIN: the token of the oldest message that the site has not served. -/
def finFiring (s : State) (u : UnitIn) (_ : List Operand) : Option Firing :=
  match tabGet [] u.run.fins u.site with
  | [] => none
  | m :: rest =>
    match msgAt s m with
    | none => none
    | some x =>
      let t := finToken x u.entry.sel
      some { emits u [] t.1 t.2 0 with run := { u.run with fins := tabSet [] u.run.fins u.site rest }, tag := some x.tag }

/-- FIN. -/
def execFin (site : BitVec 12) (s : State) : Host.Outcome State Fault Refusal :=
  atSite site (fireAt s site.toNat 5 1 [] (finFiring s))

/-- The choice of a Hearth record (R370): no-send where A.P is 0, the value is 0xFFFF, or it names no template. -/
def coutChoice (a : Operand) (templates : Nat) : BitVec 16 × Bool :=
  let k := (a.data.setWidth 16 : BitVec 16)
  if !a.p || k = 0xFFFF then (0xFFFF, false)
  else if k.toNat < templates then (k, false)
  else (0xFFFF, true)

/-- The score elements of a Hearth record (R370). -/
def coutScores (b c : Operand) : List (BitVec 32) :=
  [b.data.setWidth 32, (b.data >>> 32).setWidth 32, c.data.setWidth 32, (c.data >>> 32).setWidth 32]

/-- The record goes to the Chimney for the program's oldest message without one (R370). -/
def coutPost (c k : Nat) (a b d : Operand) (s : State) : State :=
  let x := ctxAt s c
  match tabGet [] x.run.open_ k with
  | [] => s
  | m :: rest =>
    let n := match x.image with | none => 0 | some im => im.chim.templates.length
    let h := coutChoice a n
    let s := setRun s c { x.run with open_ := tabSet [] x.run.open_ k rest }
    let s := if h.2 then bump s (cb c 7) 0x25 else s
    let s := bump s (cb c 7) 0x24
    match msgAt s m with
    | none => s
    | some y =>
      let s := sampleNow s c 4 2 y.layout (y.instr.getD 0) k ((coutScores b d).flatMap fun v => toLe 2 (narrow v).1.toNat)
      if openMsg y then handRecord s m y { choice := h.1, rule := 0x1E, scores := coutScores b d, flags := 0 } else s

/-- COUT. -/
def coutFiring (u : UnitIn) (os : List Operand) : Option Firing :=
  match os with
  | [a, b, c] => some { emits u [0, 1, 2] 0 true 0 with emit := none, post := coutPost u.ctx u.entry.mode a b c }
  | _ => none

/-- COUT. -/
def execCout (site : BitVec 12) (s : State) : Host.Outcome State Fault Refusal :=
  atSite site (fireAt s site.toNat 5 2 [0, 1, 2] coutFiring)

/-- Credits that an FLO unit has left: those of its entry less those spent (R398). -/
def floCredits (u : UnitIn) (e : Spread) : Nat := e.cred - tabGet 0 u.run.credits u.site

/-- One HTOK of one token to the far end (R440, R447). -/
def htokPacket (e : Spread) (tag : BitVec 14) (a : Operand) : Pkt :=
  pkt 0x20 e.x e.y (some tag) (e.rcirc + 256 * e.epoch + 65536) (toLe 8 a.data.toNat ++ [if a.p then 1 else 0] ++ List.replicate 7 0)

/-- FLO: a credit is spent and the token leaves in a packet. -/
def floFiring (s : State) (u : UnitIn) (os : List Operand) : Option Firing :=
  match os, spreadAt u.cfg u.site with
  | [a], some e =>
    if floCredits u e = 0 then none
    else some { emits u [0] 0 true 0 with
      emit := none,
      run := { u.run with credits := tabSet 0 u.run.credits u.site (tabGet 0 u.run.credits u.site + 1) },
      post := fun t => sendPkt t (siteChannel u.site) (htokPacket e (firingTag s u os) a) none }
  | _, _ => none

/-- FLO. -/
def execFlo (site : BitVec 12) (s : State) : Host.Outcome State Fault Refusal :=
  atSite site (fireAt s site.toNat 5 3 [0] (floFiring s))

/-- FLI: a token leaves the buffer, and its credit returns to the far end in an HCRED (R447). -/
def fliFiring (u : UnitIn) (_ : List Operand) : Option Firing :=
  match tabGet [] u.run.fli u.site, spreadAt u.cfg u.site with
  | t :: rest, some e =>
    some { emits u [] t.data t.p 0 with
      run := { u.run with fli := tabSet [] u.run.fli u.site rest },
      tag := some t.tag,
      post := fun s => sendPkt s (siteChannel u.site) (pkt 0x21 e.x e.y (some t.tag) (e.rcirc + 256 * e.epoch + 65536) []) none }
  | _, _ => none

/-- FLI. -/
def execFli (site : BitVec 12) (s : State) : Host.Outcome State Fault Refusal :=
  atSite site (fireAt s site.toNat 5 4 [] fliFiring)

/-- A KWAIT unit parks with its expected value (R469). -/
def parkUnit (s : State) (u : UnitIn) (a b : Operand) : State :=
  if u.run.parked.any fun e => e.1 = u.site then s
  else
    let s := setRun s u.ctx { u.run with parked := tabSet notParked u.run.parked u.site (u.entry.sel, b.data) }
    sampleNow s u.ctx 4 5 ((siteProgram u.cfg u.site).getD 0) 0 u.site (toLe 8 a.data.toNat)

/-- KWAIT passes its token on once its counter is at least B; until then it is parked (R469, R470). A wait by tokens whose
context does not own the counter is not performed, and is an isolation fault of that context (R24, R25, R463). -/
def execKwait (site : BitVec 12) (s : State) : Host.Outcome State Fault Refusal :=
  atSite site (
    match unitIn s site.toNat 5 5 with
    | none => s
    | some u =>
      match operands u [0, 1] with
      | some [a, b] =>
        let c := tagCtx (firingTag s u [a, b])
        if tagsDiffer [a, b] then enterRecovering s u.ctx 0x0203
        else if !ownsCounter s c u.entry.sel then enterRecovering s c 0x0203
        else if b.data ≤ counterAt s u.entry.sel then
          fireUnit s u [0, 1] fun os =>
            some { emits u [0, 1] a.data a.p 0 with
              run := { u.run with parked := tabErase u.run.parked u.site, released := u.run.released.filter (· != u.site) },
              tag := some (firingTag s u os) }
        else parkUnit s u a b
      | _ => s)

/-- KINC: B is added to the counter, 0 where B.P is 0, and the token of A passes (R367, R465, R466). -/
def kincFiring (s : State) (u : UnitIn) (os : List Operand) : Option Firing :=
  match os with
  | [a, b] => some { emits u [0, 1] a.data a.p 0 with
      post := fun t => requestInc t u.entry.sel (if b.p then b.data else 0) (firingTag s u os) }
  | _ => none

/-- KINC. -/
def execKinc (site : BitVec 12) (s : State) : Host.Outcome State Fault Refusal :=
  atSite site (fireAt s site.toNat 5 6 [0, 1] (kincFiring s))

end Sys2Proof.Machine
end

