-- ==== Sys2Proof/Machine/ChimneyOps.lean ====
section
/-! DEFINITION. The Chimney's operations (13): insertions and checksums, risk checks and buckets, wait lines, port queues,
and the release of a reply. -/

namespace Sys2Proof.Machine

/-! ### Insertions (R407–R409) -/

/-- A slot's bytes: the low WIDTH bytes of its value (R407). -/
def slotBytes (i : InsSlot) (v : BitVec 64) : Bytes := if i.be then toBe i.width v.toNat else toLe i.width v.toNat

/-- A time as a slot carries it: N for WIDTH 4, otherwise E (R408). -/
def slotTime (width : Nat) (t : Time) : BitVec 64 :=
  let e := t / ns 1
  BitVec.ofInt 64 (if width = 4 then e % 2 ^ 32 else e)

/-- Whether a source is taken at composition (R408). -/
def composedSource (i : InsSlot) : Bool := i.src ≤ 4 || (i.src = 9 && i.sel = 1)

/-- Whether a slot is a checksum (R408). -/
def checksumSlot (i : InsSlot) : Bool := 0x10 ≤ i.src

/-- A score element under ROUND; none where NV is set (R408, R409). -/
def roundedScore (r : Record) (k : Nat) : Option (BitVec 64) :=
  let v := toInt64 (r.scores.getD k 0)
  if v.2 &&& fNV = 0 then some v.1 else none

/-- The value of a source taken at composition; none for a bad insertion (R408, R409). -/
def composedValue (x : Msg) (r : Record) (i : InsSlot) : Option (BitVec 64) :=
  match i.src with
  | 1 => if i.round then roundedScore r i.sel else some ((r.scores.getD i.sel 0).setWidth 64)
  | 2 => x.fields.getD i.sel none
  | 3 => (x.fields.getD i.sel none).bind fun f => (roundedScore r i.sel2).map (f + ·)
  | 4 => some (BitVec.ofNat 64 r.rule)
  | _ => some (slotTime i.width (x.dpStamps.getD i.sel2 0))

/-- The value that a source has when it is taken at release, on port `p` for session `k` (R408, R424). The release falls `ahead`
after the start of the present time-base cycle, which a base other than the admission base counts as its own time
(PRESUMED, notes/assumptions/38). -/
def releaseValue (s : State) (p k : Nat) (ahead : Time) (i : InsSlot) : BitVec 64 :=
  match i.src with
  | 5 => BitVec.ofNat 64 (val s (0x2910 + k) 7)
  | 6 => BitVec.ofNat 64 (val s (0x2910 + k) 4)
  | 7 => BitVec.ofNat 64 (val s (0x2910 + k) 5)
  | 8 => BitVec.ofNat 64 (val s (0x2910 + k) 6)
  | 9 => slotTime i.width (baseNow (baseAt s i.sel2) + ahead)
  | 0x0A => (portAt s p).ipid.setWidth 64
  | _ => 0

/-- The body with the insertions of composition; none where one of them is bad (R409). -/
def composeBody (x : Msg) (r : Record) (slots : List InsSlot) (body : Bytes) : Option Bytes :=
  match slots with
  | [] => some body
  | i :: slots =>
    if !composedSource i then composeBody x r slots body
    else match composedValue x r i with
      | none => none
      | some v => composeBody x r slots (patch body i.off (slotBytes i v))

/-- The body with the insertions of release (R421). -/
def releaseBody (s : State) (p k : Nat) (ahead : Time) (slots : List InsSlot) (body : Bytes) : Bytes :=
  slots.foldl (fun b i =>
    if composedSource i || checksumSlot i then b else patch b i.off (slotBytes i (releaseValue s p k ahead i))) body

/-- The value of the slot that gives quantity or price; none where it is bad. One that is taken at release is checked with
the value it has at composition (DEDUCED, notes/assumptions/31). -/
def namedValue (s : State) (x : Msg) (r : Record) (t : Template) (k : Nat) : Option (BitVec 64 × Nat) :=
  match t.slots[k]? with
  | none => none
  | some i =>
    (if composedSource i then composedValue x r i else some (releaseValue s t.port t.session 0 i)).map fun v => (v, i.width)

/-- The quantity of a reply: 0 without QINS; none where it exceeds its slot (R409, R413). -/
def quantityOf (s : State) (x : Msg) (r : Record) (t : Template) : Option Nat :=
  if t.qins = 0xFF then some 0
  else (namedValue s x r t t.qins).bind fun v => if v.1.toNat < 2 ^ (8 * v.2) then some v.1.toNat else none

/-- The price that PINS gives: `some none` without PINS, none where it exceeds its slot (R409). -/
def priceOf (s : State) (x : Msg) (r : Record) (t : Template) : Option (Option Int) :=
  if t.pins = 0xFF then some none
  else (namedValue s x r t t.pins).bind fun v =>
    if signed (8 * v.2) v.1.toNat = v.1.toInt then some (some v.1.toInt) else none

/-! ### Checksums (R411, R412) -/

/-- Offset of the IPv4 header of a template's body. -/
def bodyIp (body : Bytes) : Nat := match frameTags body with | some x => x.2 + 2 | none => 14

/-- Offset of the UDP or TCP header. -/
def bodyL4 (body : Bytes) : Nat := bodyIp body + 4 * ((byteAt body (bodyIp body)).toNat % 16)

/-- Pseudo-header and segment of a body (R411). -/
def segmentBytes (body : Bytes) : Bytes :=
  let ip := bodyIp body
  let l4 := bodyL4 body
  slice body (ip + 12) 8 ++ [0, byteAt body (ip + 9)] ++ toBe 2 (body.length - l4) ++ body.drop l4

/-- The value of a checksum field over a body whose own field is zero (R411). -/
def checksumValue (t : Template) (body : Bytes) (src : Nat) : Nat :=
  if src = 0x10 then ipChecksum (slice body (bodyIp body) (bodyL4 body - bodyIp body))
  else
    let c := ipChecksum (segmentBytes body)
    if src = 0x11 then (if t.ucsum0 then 0 else if c = 0 then 0xFFFF else c) else c

/-- The body with its checksums (R411, R412). Every field is network order (DEDUCED, notes/assumptions/30). -/
def sealBody (t : Template) (body : Bytes) : Bytes :=
  let cs := t.slots.filter checksumSlot
  let clear := cs.foldl (fun b i => patch b i.off [0, 0]) body
  cs.foldl (fun b i => patch b i.off (toBe 2 (checksumValue t clear i.src))) clear

/-! ### Risk checks (R413–R417) -/

/-- Depth of a bucket: of context `k`, or of session `k − 64` (R431, R432). -/
def bucketDepth (s : State) (k : Nat) : Nat := if k < 64 then val s (cb k 9) 6 else val s (0x2910 + (k - 64)) 9

/-- Whether a session has no bucket (R432). -/
def noBucket : Nat := 0xFFFFFFFF

/-- Tokens of a bucket. -/
def tokensOf (s : State) (k : Nat) : Nat := (tabGet Bucket.reset s.chim.buckets k).tokens

/-- Writes a bucket. -/
def setTokens (s : State) (k n : Nat) : State :=
  { s with chim := { s.chim with buckets := tabSet Bucket.reset s.chim.buckets k { tokens := n } } }

/-- A bucket becomes full (R415). -/
def fillBucket (s : State) (k : Nat) : State :=
  let d := bucketDepth s k
  if d = noBucket then setTokens s k 0 else setTokens s k d

/-- The sessions of a context's image. -/
def sessionsOf (s : State) (c : Nat) : List Nat :=
  match (ctxAt s c).image with
  | none => []
  | some m => (List.range 64).filter fun k => bit m.chim.sessmask.toNat k

/-- The buckets of a context are full when it enters Closed (R415). -/
def fillBuckets (s : State) (c : Nat) : State :=
  (sessionsOf s c).foldl (fun s k => fillBucket s (64 + k)) (fillBucket s c)

/-- The first kill check that fails for a template of context `c`; 0 for none (R413). -/
def killCheck (s : State) (c : Nat) (t : Template) : Nat :=
  if val s 0x2900 1 = 1 then 1
  else if val s (cb c 9) 1 = 1 then 2
  else if t.sess && val s (0x2910 + t.session) 8 = 1 then 3
  else 0

/-- The buckets that check 7 tests (R413). -/
def testedBuckets (s : State) (c : Nat) (t : Template) : List Nat :=
  c :: (if t.sess && bucketDepth s (64 + t.session) ≠ noBucket then [64 + t.session] else [])

/-- Whether the notional check fails (R413): the exact product leaves 64 bits signed, or passes the maximum. -/
def notionalFails (s : State) (c qty : Nat) (qins : Bool) (price : Option Int) : Bool :=
  match price with
  | none => qins
  | some p =>
    let v := (qty : Int) * p
    v < -(2 ^ 63) || 2 ^ 63 ≤ v || val s (cb c 9) 3 < v.natAbs

/-- Whether the price band check fails (R413). -/
def bandFails (s : State) (c : Nat) (ref price : Option Int) : Bool :=
  if bits (val s (cb c 9) 5) 9 8 = 0 then false
  else match ref, price with
    | some r, some p => val s (cb c 9) 4 < (p - r).natAbs
    | _, _ => true

/-- The reference of a message as the checks take it (R413, R416). -/
def referenceOf (s : State) (x : Msg) : Option Int :=
  if bits (val s (cb x.ctx 9) 5) 9 8 = 0 then none else x.riskRef.map (·.toInt)

/-- The first check that fails, 1 to 7; 0 where all pass (R413). -/
def riskCheck (s : State) (x : Msg) (t : Template) (qty : Nat) (price : Option Int) : Nat :=
  let c := x.ctx
  let k := killCheck s c t
  if k ≠ 0 then k
  else if val s (cb c 9) 2 < qty then 4
  else if notionalFails s c qty (t.qins ≠ 0xFF) price then 5
  else if bandFails s c (referenceOf s x) price then 6
  else if (testedBuckets s c t).any fun b => tokensOf s b = 0 then 7
  else 0

/-- A failing check is counted and logged (R414). -/
def riskRecord (s : State) (c : Nat) (tag : BitVec 14) (template check qty : Nat) (price : BitVec 64) : State :=
  let s := bump (bump s (cb c 9) (8 + check)) 0x2900 5
  soot s 0x2901 (some tag) (template + 65536 * check + 2 ^ 32 * min qty (2 ^ 32 - 1)) price.toNat

/-- Kills that are set suppress every reply that has passed its checks and is not released (R417). -/
def applyKills (s : State) : State :=
  s.chim.replies.foldl (fun s y =>
    match replyAt s y.1 with
    | none => s
    | some x =>
      if x.state = .waiting || x.state = .queued then
        match templateAt s x.ctx x.template with
        | none => s
        | some t =>
          let k := killCheck s x.ctx t
          if k = 0 then s else riskRecord (suppress s y.1 x) x.ctx x.tag x.template k x.qty.toNat x.price
      else s) s

/-! ### Wait lines and port queues (R418, R420) -/

/-- Rank in an arbitration group of a port's queue (R31): by class, then by context. -/
def queueRank (x : Reply) : Nat :=
  64 * (match x.klass with | .a => 0 | .b => 1 | .c => 2 | .u => 3) + x.ctx

/-- The span of an arbitration group (R583). -/
def groupSpan : Time := ps 300

/-- A reply enters its port's queue (R31, R420, R583). -/
def enterQueue (s : State) (r : Nat) (x : Reply) : State :=
  let now := admNow s
  let g := tabGet 0 s.chim.groupAt x.port
  let g := if g ≤ now && now ≤ g + groupSpan then g else now
  let y := portAt s x.port
  let front := y.queue.takeWhile fun k =>
    match replyAt s k with
    | none => true
    | some z => z.entered < g || queueRank z ≤ queueRank x
  let s := setReply s r { x with state := .queued, entered := now, parked := false }
  let s := { s with chim := { s.chim with groupAt := tabSet 0 s.chim.groupAt x.port g } }
  setPort s x.port { y with queue := front ++ r :: y.queue.drop front.length }

/-- A reply joins its context's wait line for its port; at the head it is compared at once (R418, R469). -/
def joinLine (s : State) (r : Nat) (x : Reply) : State :=
  let l := lineAt s x.ctx x.port
  let s := setLine (setReply s r x) x.ctx x.port (l ++ [r])
  if l.isEmpty then parkHead s x.ctx x.port else s

/-- The ticket of a reply's template advances by KSTEP as the reply's wait ends (R418). -/
def advanceTicket (s : State) (x : Reply) : State :=
  match templateAt s x.ctx x.template with
  | none => s
  | some t => setTicket s x.ctx x.template ((ticketOf s x.ctx x.template + t.kstep) % 2 ^ 64)

/-! ### Release (R420–R427) -/

/-- Whether a release now is later than the deadline minus t_tx (R67). -/
def releaseLate (s : State) (p : Nat) (x : Reply) : Bool :=
  match x.deadline with
  | none => false
  | some d => d - tTx (replySpeed s p) < releaseAt s p x

/-- The late action of a context (CB+0x02:24). -/
def lateAction (s : State) (c : Nat) : Nat := val s (cb c 2) 0x24

/-- A bound miss is counted and logged, with the lateness in 0.1 ns (R67). -/
def boundMiss (s : State) (c layout : Nat) (tag : BitVec 14) (action late : Nat) : State :=
  soot (bump s (cb c 2) 0x25) 0x2301 (some tag) (layout % 8 + 256 * action) late

/-- How late a release now is, in 0.1 ns. -/
def lateness (s : State) (p : Nat) (x : Reply) : Nat :=
  match x.deadline with
  | none => 0
  | some d => ((releaseAt s p x - (d - tTx (replySpeed s p))) / tenths 1).toNat

/-- The no-send of a reply that is late under late action 1 is recorded, at its deadline (R67). -/
def suppressLate (s : State) (r : Nat) (x : Reply) : State :=
  boundMiss (suppress s r x) x.ctx x.layout x.tag 1 0

/-- A reply whose release would fall later than its deadline minus t_tx, under late action 1 (R67): it leaves its queue at
once, and its no-send is recorded at the deadline. -/
def holdLate (s : State) (r : Nat) (x : Reply) : State :=
  if x.deadline.getD 0 ≤ admNow s then suppressLate s r x
  else setReply (unqueue s r x) r { x with state := .late }

/-- RENT of a context. -/
def rentOf (s : State) (c : Nat) : Nat := match (ctxAt s c).image with | none => 0 | some m => m.chim.rent

/-- Whether the resend entry that a segment needs would reach Resend release (R427): the ring would be full with it. -/
def ringFull (s : State) (c : Nat) : Bool :=
  (val s (cb c 8) 0x0C + 1) % max 1 (rentOf s c) = val s (cb c 8) 0x0D

/-- The session of a template advances (R424). -/
def advanceSession (s : State) (t : Template) (payload : Nat) : State :=
  if !t.sess then s
  else
    let i := 0x2910 + t.session
    let s := put s i 7 ((val s i 7 + 1) % 2 ^ 32)
    let s := if t.l4 = 2 then put s i 4 ((val s i 4 + payload) % 2 ^ 32) else s
    bump s i 0x0B

/-- A resend ring entry is started with STATUS 0 (R426). -/
def startResend (s : State) (c : Nat) (e : Resend) : Nat × State :=
  let k := val s (cb c 8) 0x0C
  let x := ctxAt s c
  let s := setCtx s c { x with resend := tabSet none x.resend k (some e) }
  (k, put s (cb c 8) 0x0C ((k + 1) % max 1 (rentOf s c)))

/-- A reply is released (R421): release-time values and checksums, the session, a resend entry, and the wire. It is
delivered (R428). -/
def sendReply (s : State) (p r : Nat) (x : Reply) (t : Template) : State :=
  let body := sealBody t (releaseBody s p t.session (releaseAt s p x - admNow s) t.slots x.body)
  let l4 := bodyL4 body
  let i := 0x2910 + t.session
  let seqno := if t.sess then BitVec.ofNat 32 (val s i 4) else BitVec.ofNat 32 (beAt body (l4 + 4) 4)
  let at_ := releaseAt s p x
  let first := at_ + tTx (replySpeed s p)
  let entry : Resend :=
    { seq := seqno, session := t.session, status := 0, e := (first / ns 1).toNat, msgno := BitVec.ofNat 32 (val s i 7),
      frame := body }
  let s := advanceSession s t (t.len - (l4 + 20))
  let (k, s) := if t.l4 = 2 then let (k, s) := startResend s x.ctx entry; (some k, s) else (none, s)
  let s := if t.l4 = 0 then s else setPort s p { portAt s p with ipid := (portAt s p).ipid + 1 }
  let y := portAt s p
  let s := setPort s p { y with queue := y.queue.filter (· != r), sending := y.sending ++ [r] }
  let x := { x with state := .sending, start := at_, body := body, resend := k, seqno := seqno }
  let s := emit (setReply s r x) (.replyOut p r (padded body))
  chimSample (deliver (replyInc (replyInc s x 0) x 2) x.msg) x.msg 2 x.template

/-- The head of a port's queue reaches release (R67, R83, R421, R423, R427). Where several rules suppress it, they are
taken in the order late, session, link, resend ring (DEDUCED, notes/assumptions/31). -/
def releaseHead (s : State) (p r : Nat) (x : Reply) (t : Template) : State :=
  if releaseLate s p x && lateAction s x.ctx = 1 then holdLate s r x
  else if t.sess && val s (0x2910 + t.session) 2 ≠ 1 then suppressIn s r x (cb x.ctx 8) 8
  else if !linkUp (portAt s p) then soot (suppressIn s r x (0x2110 + p) 0x13) 0x2102 (some x.tag) p x.template
  else if t.l4 = 2 && ringFull s x.ctx then
    soot (suppressIn s r x (cb x.ctx 8) 9) 0x2904 (some x.tag) t.session (val s (0x2910 + t.session) 4)
  else
    let s := if releaseLate s p x then boundMiss s x.ctx x.layout x.tag 0 (lateness s p x) else s
    sendReply s p r x t

end Sys2Proof.Machine
end

