-- ==== Sys2Proof/Machine/Chimney.lean ====
section
/-! DEFINITION. The Chimney's commands (13): record intake, wait lines, release, commit point and end of a reply, buckets,
kills, sessions, the resend ring and template errors. -/

namespace Sys2Proof.Machine

/-! ### Intake (R403, R404) -/

/-- A message at an order point: its number, decision point, ingress port and whether its record has entered. -/
structure OrderItem where
  msg : Nat
  tdp : Time
  port : Nat
  entered : Bool
  deriving DecidableEq, Repr

/-- An item among others in order of decision points. -/
def orderInsert (x : OrderItem) (l : List OrderItem) : List OrderItem :=
  match l with
  | [] => [x]
  | y :: l => if x.tdp < y.tdp then x :: y :: l else y :: orderInsert x l

/-- The admitted messages of one context, program kind and class, in order of decision points (R32). -/
def orderItems (s : State) (c : Nat) (k : PKind) (l : Klass) : List OrderItem :=
  s.work.msgs.foldl (fun acc x =>
    match x.2 with
    | some m =>
      if m.ctx = c && m.kind = k && m.klass = l && m.fate = .admitted then
        orderInsert { msg := x.1, tdp := m.tdp.getD 0, port := m.port, entered := m.entered } acc
      else acc
    | none => acc) []

/-- The same items, each with the decision point that opened its arbitration group (R583). -/
def orderGroups (l : List OrderItem) : List (Time × OrderItem) :=
  (l.foldl (fun (acc : List (Time × OrderItem) × Option Time) x =>
    let g := match acc.2 with | some g => if x.tdp ≤ g + groupSpan then g else x.tdp | none => x.tdp
    (acc.1 ++ [(g, x)], some g)) ([], none)).1

/-- Whether every message before `m` in its order has entered (R32, R403): earlier groups, and within the group lower
ingress ports, then earlier ones. -/
def mayEnter (s : State) (m : Nat) (x : Msg) : Bool :=
  let l := orderGroups (orderItems s x.ctx x.kind x.klass)
  match l.find? fun y => y.2.msg = m with
  | none => true
  | some me =>
    let before := (l.takeWhile fun y => y.2.msg ≠ m).filter fun y => y.1 < me.1 || y.2.port ≤ me.2.port
    let after := l.filter fun y => y.1 = me.1 && y.2.port < me.2.port
    (before ++ after).all fun y => y.2.entered

/-- The record that the intake takes next: in order of arrival the first that is stale, stands for a message that already
has its no-send, or whose turn has come. -/
def nextRecord (s : State) (c : Nat) : Option (Nat × Msg × Record) :=
  (tabGet [] s.chim.intake c).findSome? fun m =>
    match msgAt s m with
    | none => none
    | some x =>
      match x.record with
      | none => none
      | some r => if !tagCurrent s x.tag || x.delivered || mayEnter s m x then some (m, x, r) else none

/-- The reply of a message, composed (R407–R409). -/
def newReply (s : State) (m : Nat) (x : Msg) (r : Record) (t : Template) (body : Bytes) (qty : Nat) (price : Int) : Reply :=
  let l := ((ctxAt s x.ctx).image).bind fun im => layoutOf im x.layout
  let verified := match l with | some l => l.verified | none => false
  { msg := m, ctx := x.ctx, tag := x.tag, frame := x.frame, layout := x.layout, template := r.choice.toNat, port := t.port,
    klass := x.klass, body := body, qty := BitVec.ofNat 64 qty, price := BitVec.ofInt 64 price, deadline := x.deadline,
    hold := (match x.tEnd with
      | some e => holdTime verified ((linkSpeed (portAt s x.port)).getD .g25) (replySpeed s t.port) e t
      | none => x.tdp.getD 0),
    verified := verified, tdp := x.tdp.getD 0, state := .waiting, entered := 0, parked := false, start := 0, commit := none,
    torn := false, underrun := false, resend := none, seqno := 0 }

/-- A reply that has passed its checks takes its tokens (R414) and waits for its counter, or for its port (R418, R420). -/
def acceptReply (s : State) (x : Msg) (t : Template) (y : Reply) : State :=
  let s := (testedBuckets s x.ctx t).foldl (fun s b => setTokens s b (tokensOf s b - 1)) s
  let r := s.chim.nextReply
  let s := { s with chim := { s.chim with nextReply := r + 1 } }
  if t.kwait = 0xFFFF then enterQueue s r y
  else if !ownsCounter s x.ctx t.kwait then enterRecovering (setReply s r y) x.ctx 0x0203
  else joinLine s r y

/-- A no-send decision for a reply that its template ended before it waited anywhere (R404, R409, R414): point 2
increments (R419). -/
def endComposed (s : State) (m : Nat) (y : Reply) : State :=
  deliver (replyInc (chimSample s m 3 y.template) y 2) m

/-- Composition and the risk checks of a record whose template sends (R403, R409, R413, R414, R423). -/
def composeReply (s : State) (m : Nat) (x : Msg) (r : Record) (t : Template) : State :=
  let c := x.ctx
  let y := newReply s m x r t (t.body.take t.len) 0 0
  if replyVerdict s y = some false then bump (endComposed s m y) (cb c 2) 0x0F
  else if t.sess && val s (0x2910 + t.session) 2 ≠ 1 then bump (endComposed s m y) (cb c 8) 8
  else match composeBody x r t.slots y.body, quantityOf s x r t, priceOf s x r t with
    | some body, some qty, some price =>
      let price := match price with | some p => some p | none => referenceOf s x
      let k := riskCheck s x t qty price
      let p := BitVec.ofInt 64 (price.getD 0)
      if k ≠ 0 then riskRecord (endComposed s m y) c x.tag r.choice.toNat k qty p
      else acceptReply s x t { y with body := body, qty := BitVec.ofNat 64 qty, price := p }
    | _, _, _ => bump (endComposed s m y) (cb c 8) 6

/-- A record enters the Chimney (R403, R404). -/
def enterRecord (s : State) (m : Nat) (x : Msg) (r : Record) : State :=
  let s := chimSample (setMsg s m { x with entered := true }) m 1 r.choice.toNat
  match (if r.choice = 0xFFFF then none else templateAt s x.ctx r.choice.toNat) with
  | some t => if t.valid && t.len ≠ 0 then composeReply s m x r t else noSend s m (cb x.ctx 8) 0x0E
  | none => noSend s m (cb x.ctx 8) 0x0E

/-- RECORD_INTAKE (R16, R32, R403, R404, R413): the intake of a context takes the record whose turn it is. -/
def execRecordIntake (c : BitVec 6) (s : State) : Host.Outcome State Fault Refusal :=
  let c := c.toNat
  .next (
    if !domIsOn s 32 then s
    else match nextRecord s c with
      | none => s
      | some (m, x, r) =>
        let s := { s with chim := { s.chim with intake := tabSet [] s.chim.intake c ((tabGet [] s.chim.intake c).filter (· != m)) } }
        if !tagCurrent s x.tag then staleDrop s x.tag
        else if x.delivered then s
        else enterRecord s m x r)

/-! ### Wait lines (R418) -/

/-- WAIT_LINE_RELEASE (R418): the comparison of a line's head holds; it goes to its port's queue, and its ticket
advances. -/
def execWaitLineRelease (c : BitVec 6) (p : BitVec 3) (s : State) : Host.Outcome State Fault Refusal :=
  let c := c.toNat
  let p := p.toNat
  .next (
    match (lineAt s c p).head? with
    | none => s
    | some r =>
      match replyAt s r with
      | none => s
      | some x =>
        if x.parked || !domIsOn s 32 then s
        else enterQueue (leaveLine (advanceTicket s x) c p r) r x)

/-- The reply of a line whose deadline less t_tx has been reached, the earliest first; a head whose comparison has held does
not expire. -/
def expiredWait (s : State) (c p : Nat) : Option (Nat × Reply) :=
  let l := lineAt s c p
  l.foldl (fun (b : Option (Nat × Reply)) r =>
    match replyAt s r with
    | none => b
    | some x =>
      match x.deadline with
      | none => b
      | some d =>
        if admNow s < d - tTx (replySpeed s p) || (l.head? = some r && !x.parked) then b
        else match b with
          | some (k, y) => if y.deadline.getD 0 ≤ d then some (k, y) else some (r, x)
          | none => some (r, x)) none

/-- COUNTER_WAIT_EXPIRED (R418): the wait ends at the deadline less t_tx; the reply is suppressed whatever the late action,
and the ticket advances. -/
def execCounterWaitExpired (c : BitVec 6) (p : BitVec 3) (s : State) : Host.Outcome State Fault Refusal :=
  let c := c.toNat
  .next (
    match expiredWait s c p.toNat with
    | none => s
    | some (r, x) =>
      let ticket := ticketOf s c x.template
      soot (suppressIn (advanceTicket s x) r x (cb c 8) 7) 0x2902 (some x.tag) x.template ticket)

/-! ### Release, commit point and end (R420–R427) -/

/-- REPLY_RELEASE (R67, R83, R122, R420, R421): the head of a port's queue is released once its conditions hold. Where only a
preemptable frame in transmission stands against it, that frame is asked to yield. -/
def execReplyRelease (p : BitVec 3) (s : State) : Host.Outcome State Fault Refusal :=
  let p := p.toNat
  .next (
    match (portAt s p).queue.head? with
    | none => s
    | some r =>
      match replyAt s r with
      | none => s
      | some x =>
        match templateAt s x.ctx x.template with
        | none => s
        | some t =>
          if !(domIsOn s 32 && releaseOpen s p x) then s
          else if txYields s p then resumeTx (releaseHead s p r x t) p
          else preemptTx s p)

/-- The reply of a port that was held as late and has reached its deadline. -/
def lateDue (s : State) (p : Nat) : Option (Nat × Reply) :=
  s.chim.replies.findSome? fun y =>
    match y.2 with
    | none => none
    | some x => if x.port = p && x.state = .late && x.deadline.getD 0 ≤ admNow s then some (y.1, x) else none

/-- The queued reply of a port that has passed its deadline less t_tx under late action 1, the earliest first; at that very
instant it may still be released. -/
def lateReply (s : State) (p : Nat) : Option (Nat × Reply) :=
  (portAt s p).queue.foldl (fun (b : Option (Nat × Reply)) r =>
    match replyAt s r with
    | none => b
    | some x =>
      match x.deadline with
      | none => b
      | some d =>
        if admNow s ≤ d - tTx (replySpeed s p) || lateAction s x.ctx ≠ 1 then b
        else match b with
          | some (k, y) => if y.deadline.getD 0 ≤ d then some (k, y) else some (r, x)
          | none => some (r, x)) none

/-- An admitted message received on a port whose deadline has come without a record, under late action 1. -/
def lateMessage (s : State) (p : Nat) : Option (Nat × Msg) :=
  s.work.msgs.findSome? fun y =>
    match y.2 with
    | none => none
    | some m =>
      match m.deadline with
      | none => none
      | some d => if openMsg m && !m.entered && m.port = p && d ≤ admNow s && lateAction s m.ctx = 1 then some (y.1, m) else none

/-- RELEASE_DEADLINE_MISS (R67, R68): under late action 1 a reply that is not released by its deadline less t_tx is
suppressed, its no-send is recorded at its deadline, and a message that reaches its deadline without a record receives its
no-send. Under late action 0 the reply waits on and is counted when it is released. -/
def execReleaseDeadlineMiss (p : BitVec 3) (s : State) : Host.Outcome State Fault Refusal :=
  let p := p.toNat
  .next (
    match lateDue s p with
    | some (r, x) => suppressLate s r x
    | none =>
      match lateReply s p with
      | some (r, x) => resumeTx (holdLate s r x) p
      | none =>
        match lateMessage s p with
        | some (m, x) => settleEns (boundMiss (deliver s m) x.ctx x.layout x.tag 1 0) x.ctx
        | none => s)

/-- What the commit point decides (R187–R190, R422, R487): the true FCS or not, and the counter of a complement. -/
def commitChoice (s : State) (x : Reply) : Option (Nat × Nat) :=
  if x.torn then some (cb x.ctx 0x0C, 0x0D)
  else if x.verified then none
  else match replyVerdict s x with
    | some true => none
    | some false => some (cb x.ctx 2, 0x10)
    | none => some (cb x.ctx 2, 0x11)

/-- COMMIT_POINT (R189, R190, R422, R425): the MAC is directed to send the FCS or its complement; a stomped TCP segment
holds its session. -/
def execCommitPoint (reply : Nat) (s : State) : Host.Outcome State Fault Refusal :=
  .next (
    match replyAt s reply with
    | none => s
    | some x =>
      if x.state ≠ .sending || x.commit.isSome then s
      else match commitChoice s x with
        | none => emit (setReply s reply { x with commit := some true })
            (.fcs x.port reply true (padded x.body).length (fcsBytes (padded x.body)))
        | some (i, sub) =>
          let s := bump (bump (setReply s reply { x with commit := some false }) i sub) (0x2110 + x.port) 0x11
          emit (holdSession s x) (.fcs x.port reply false (padded x.body).length (stompBytes (padded x.body))))

/-- REPLY_END (R126, R419, R426, R428): the last bit of a reply leaves, and a preempted frame may resume (R123). -/
def execReplyEnd (reply : Nat) (s : State) : Host.Outcome State Fault Refusal :=
  .next (
    match replyAt s reply with
    | none => s
    | some x =>
      match x.state, x.commit with
      | .sending, some good =>
        let i := 0x2110 + x.port
        let s := bump (bumpBy 64 (bump s i 0x0D) i 0x0E (wireBytes x)) i 0x0F
        let s := resendStatus s x (if good then 1 else 2)
        let s := setReply s reply { x with state := .ended }
        let y := portAt s x.port
        let s := leaveGap (setPort s x.port { y with sending := y.sending.filter (· != reply) }) x.port 12
        let s := if good then replyInc (bump s (cb x.ctx 8) 5) x 1 else s
        resumeTx s x.port
      | _, _ => s)

/-- Bytes of a reply that have left by now: its first bit left t_tx after its release (R49). -/
def replySent (s : State) (x : Reply) : Nat :=
  min (padded x.body).length
    ((admNow s - (x.start + tTx (replySpeed s x.port))) / byteTime (replySpeed s x.port)).toNat

/-- TX_UNDERRUN (R114, R422): the reply's next byte is not ready; the MAC ends the frame with the complemented FCS of the bytes
that have left. -/
def execTxUnderrun (p : BitVec 3) (s : State) : Host.Outcome State Fault Refusal :=
  let p := p.toNat
  .next (
    match (portAt s p).sending.head? with
    | none => s
    | some r =>
      match replyAt s r with
      | none => s
      | some x =>
        let n := replySent s x
        let s := endStomped (bump s (0x2110 + p) 0x12) r { x with underrun := true } 2
        let s := if x.commit = some false then s else bump s (0x2110 + p) 0x11
        resumeTx (leaveGap (emit s (.fcs p r false n (stompBytes ((padded x.body).take n)))) p 16) p)

/-! ### Risk (R415, R417) -/

/-- BUCKET_REFILL (R415): a bucket gains a token, up to its depth. -/
def execBucketRefill (c : BitVec 6) (session : Option (BitVec 6)) (s : State) : Host.Outcome State Fault Refusal :=
  let k := match session with | some x => 64 + x.toNat | none => c.toNat
  let d := bucketDepth s k
  .next (if d ≠ noBucket && tokensOf s k < d then setTokens s k (tokensOf s k + 1) else s)

/-- A write to a kill object, TRUE or FALSE (R417, R532): checked only for existence, access and scope. -/
def killAns (q : Requester) (i sub v : Nat) (s : State) : Ans :=
  if !served s then .error abState
  else match accessAbort s q i sub with
    | some a => .error a
    | none => .ok (applyKills (put s i sub v))

/-- A write to a kill object as a request. Another value than TRUE or FALSE is a write like any other, and is refused. -/
def killWrite (q : Requester) (i sub : Nat) (value : BitVec 8) (s : State) : State :=
  if 1 < value.toNat then request s q i sub [value] fun s => .ok s
  else if !heard s q then s
  else match killAns q i sub value.toNat s with
    | .error a => respond s q i sub a []
    | .errorIn a t => respond t q i sub a []
    | .ok t => respond t q i sub 0 []

/-- GLOBAL_KILL (R413, R417). -/
def execGlobalKill (q : Requester) (value : BitVec 8) (s : State) : Host.Outcome State Fault Refusal :=
  .next (killWrite q 0x2900 1 value s)

/-- CONTEXT_KILL (R413, R417). -/
def execContextKill (q : Requester) (c : BitVec 6) (value : BitVec 8) (s : State) : Host.Outcome State Fault Refusal :=
  .next (killWrite q (cb c.toNat 9) 1 value s)

/-- SESSION_KILL (R413, R417). -/
def execSessionKill (q : Requester) (session : BitVec 6) (value : BitVec 8) (s : State) : Host.Outcome State Fault Refusal :=
  .next (killWrite q (0x2910 + session.toNat) 8 value s)

/-! ### Sessions and the resend ring (R423, R426) -/

/-- The rules of 0x2910+s:03 (R423). -/
def writeSendSession (k : Nat) (data : Bytes) (s : State) : Ans :=
  let i := 0x2910 + k
  match leNat data, val s i 2 with
  | 1, 0 => .ok (put s i 2 1)
  | 2, 2 => .ok (put s i 2 1)
  | 3, _ => .ok (put s i 2 0)
  | _, _ => .error abState

/-- SESSION_OPEN (R423): from Closed, with the numbers that the session object holds. -/
def execSessionOpen (q : Requester) (session : BitVec 6) (s : State) : Host.Outcome State Fault Refusal :=
  .next (request s q (0x2910 + session.toNat) 3 [1] (writeSendSession session.toNat [1]))

/-- SESSION_RESUME (R423): from Held. -/
def execSessionResume (q : Requester) (session : BitVec 6) (s : State) : Host.Outcome State Fault Refusal :=
  .next (request s q (0x2910 + session.toNat) 3 [2] (writeSendSession session.toNat [2]))

/-- SESSION_CLOSE (R423): from any state. -/
def execSessionClose (q : Requester) (session : BitVec 6) (s : State) : Host.Outcome State Fault Refusal :=
  .next (request s q (0x2910 + session.toNat) 3 [3] (writeSendSession session.toNat [3]))

/-- The rules of CB+0x08:0D (R426): an entry of the ring (DEDUCED, notes/assumptions/31). -/
def writeResendRelease (c : Nat) (data : Bytes) (s : State) : Ans :=
  if max 1 (rentOf s c) ≤ leNat data then .error abRange else .ok (put s (cb c 8) 0x0D (leNat data))

/-- RESEND_RELEASE_WRITE (R426). -/
def execResendReleaseWrite (q : Requester) (c : BitVec 6) (value : BitVec 16) (s : State) :
    Host.Outcome State Fault Refusal :=
  let data := toLe 2 value.toNat
  .next (request s q (cb c.toNat 8) 0x0D data (writeResendRelease c.toNat data))

/-! ### Template errors (R429) -/

/-- TEMPLATE_ERROR (R429): a corrected error is counted, and the template is used corrected. After another the reply is suppressed
before release; after an uncorrectable one the template is rewritten, and the context's programs are declined until then. -/
def execTemplateError (reply : Nat) (kind : ErrKind) (s : State) : Host.Outcome State Fault Refusal :=
  .next (
    match replyAt s reply with
    | none => s
    | some x =>
      if !kind.lost then bump s 0x2900 3
      else if x.state ≠ .waiting && x.state ≠ .queued then s
      else
        let s := soot (suppressIn s reply x 0x2900 4) 0x2905 (some x.tag) x.template 0
        let c := ctxAt s x.ctx
        if kind = .uncorrectable && !c.damaged.contains x.template then
          setCtx s x.ctx { c with damaged := c.damaged ++ [x.template] }
        else s)

/-- TEMPLATE_REWRITE_DONE (R429): the template is whole again. -/
def execTemplateRewriteDone (c : BitVec 6) (template : BitVec 12) (s : State) : Host.Outcome State Fault Refusal :=
  let x := ctxAt s c.toNat
  .next (setCtx s c.toNat { x with damaged := x.damaged.filter (· != template.toNat) })

end Sys2Proof.Machine
end

