-- ==== Sys2Proof/Machine/Crypto.lean ====
section
/-! DEFINITION. The two cryptographic functions that the spec names for containers (R533, R534): SHA-256, and the
Ed25519 signature check of RFC 8032 with the SHA-512 it rests on. PRESUMED: the spec names the algorithms and does not
print them; they are FIPS 180-4 and RFC 8032 (notes/assumptions/22). -/

namespace Sys2Proof.Machine

/-! ### SHA-2 -/

/-- Fractions of the cube roots of the first 40 primes, 64 bits: the constants of SHA-512, and in their upper halves of
SHA-256. -/
def shaK1 : List Nat :=
  [0x428A2F98D728AE22, 0x7137449123EF65CD, 0xB5C0FBCFEC4D3B2F, 0xE9B5DBA58189DBBC, 0x3956C25BF348B538,
   0x59F111F1B605D019, 0x923F82A4AF194F9B, 0xAB1C5ED5DA6D8118, 0xD807AA98A3030242, 0x12835B0145706FBE,
   0x243185BE4EE4B28C, 0x550C7DC3D5FFB4E2, 0x72BE5D74F27B896F, 0x80DEB1FE3B1696B1, 0x9BDC06A725C71235,
   0xC19BF174CF692694, 0xE49B69C19EF14AD2, 0xEFBE4786384F25E3, 0x0FC19DC68B8CD5B5, 0x240CA1CC77AC9C65,
   0x2DE92C6F592B0275, 0x4A7484AA6EA6E483, 0x5CB0A9DCBD41FBD4, 0x76F988DA831153B5, 0x983E5152EE66DFAB,
   0xA831C66D2DB43210, 0xB00327C898FB213F, 0xBF597FC7BEEF0EE4, 0xC6E00BF33DA88FC2, 0xD5A79147930AA725,
   0x06CA6351E003826F, 0x142929670A0E6E70, 0x27B70A8546D22FFC, 0x2E1B21385C26C926, 0x4D2C6DFC5AC42AED,
   0x53380D139D95B3DF, 0x650A73548BAF63DE, 0x766A0ABB3C77B2A8, 0x81C2C92E47EDAEE6, 0x92722C851482353B]

/-- Those of the next 40 primes. -/
def shaK2 : List Nat :=
  [0xA2BFE8A14CF10364, 0xA81A664BBC423001, 0xC24B8B70D0F89791, 0xC76C51A30654BE30, 0xD192E819D6EF5218,
   0xD69906245565A910, 0xF40E35855771202A, 0x106AA07032BBD1B8, 0x19A4C116B8D2D0C8, 0x1E376C085141AB53,
   0x2748774CDF8EEB99, 0x34B0BCB5E19B48A8, 0x391C0CB3C5C95A63, 0x4ED8AA4AE3418ACB, 0x5B9CCA4F7763E373,
   0x682E6FF3D6B2B8A3, 0x748F82EE5DEFB2FC, 0x78A5636F43172F60, 0x84C87814A1F0AB72, 0x8CC702081A6439EC,
   0x90BEFFFA23631E28, 0xA4506CEBDE82BDE9, 0xBEF9A3F7B2C67915, 0xC67178F2E372532B, 0xCA273ECEEA26619C,
   0xD186B8C721C0C207, 0xEADA7DD6CDE0EB1E, 0xF57D4F7FEE6ED178, 0x06F067AA72176FBA, 0x0A637DC5A2C898A6,
   0x113F9804BEF90DAE, 0x1B710B35131C471B, 0x28DB77F523047D84, 0x32CAAB7B40C72493, 0x3C9EBE0A15C9BEBC,
   0x431D67C49C100D4C, 0x4CC5D4BECB3E42B6, 0x597F299CFC657E2A, 0x5FCB6FAB3AD6FAEC, 0x6C44198C4A475817]

/-- Fractions of the square roots of the first 8 primes. -/
def shaH : List Nat :=
  [0x6A09E667F3BCC908, 0xBB67AE8584CAA73B, 0x3C6EF372FE94F82B, 0xA54FF53A5F1D36F1, 0x510E527FADE682D1,
   0x9B05688C2B3E6C1F, 0x1F83D9ABFB41BD6B, 0x5BE0CD19137E2179]

/-- One of the two functions: its word width, the rotations of its four sigmas, and its rounds. -/
structure Sha where
  w : Nat
  rounds : Nat
  big0 : Nat × Nat × Nat
  big1 : Nat × Nat × Nat
  small0 : Nat × Nat × Nat
  small1 : Nat × Nat × Nat
  deriving DecidableEq, Repr

def sha256Params : Sha :=
  { w := 32, rounds := 64, big0 := (2, 13, 22), big1 := (6, 11, 25), small0 := (7, 18, 3), small1 := (17, 19, 10) }

def sha512Params : Sha :=
  { w := 64, rounds := 80, big0 := (28, 34, 39), big1 := (14, 18, 41), small0 := (1, 8, 7), small1 := (19, 61, 6) }

/-- A constant at the width of the function: its upper bits. -/
def shaTop (h : Sha) (v : Nat) : Nat := v / 2 ^ (64 - h.w)

/-- Rotation to the right. -/
def rotr (w x n : Nat) : Nat := x / 2 ^ n + x * 2 ^ (w - n) % 2 ^ w

/-- A sigma of the rounds: three rotations. -/
def shaBig (w x : Nat) (r : Nat × Nat × Nat) : Nat := rotr w x r.1 ^^^ rotr w x r.2.1 ^^^ rotr w x r.2.2

/-- A sigma of the schedule: two rotations and a shift. -/
def shaSmall (w x : Nat) (r : Nat × Nat × Nat) : Nat := rotr w x r.1 ^^^ rotr w x r.2.1 ^^^ (x / 2 ^ r.2.2)

/-- The message schedule, newest word first, `n` words beyond the 16 of the block. -/
def shaExtend (h : Sha) (n : Nat) (ws : List Nat) : List Nat :=
  match n with
  | 0 => ws
  | n + 1 =>
    shaExtend h n
      (((shaSmall h.w (ws.getD 1 0) h.small1 + ws.getD 6 0 + shaSmall h.w (ws.getD 14 0) h.small0 + ws.getD 15 0) % 2 ^ h.w)
        :: ws)

/-- One round on the eight working variables, with the sum of the round's constant and schedule word. -/
def shaRound (h : Sha) (v : List Nat) (kw : Nat) : List Nat :=
  match v with
  | [a, b, c, d, e, f, g, x] =>
    let m := 2 ^ h.w
    let t1 := x + shaBig h.w e h.big1 + ((e &&& f) ^^^ ((m - 1 - e) &&& g)) + kw
    let t2 := shaBig h.w a h.big0 + ((a &&& b) ^^^ (a &&& c) ^^^ (b &&& c))
    [(t1 + t2) % m, a, b, c, (d + t1) % m, e, f, g]
  | v => v

/-- One block of 16 words. -/
def shaBlock (h : Sha) (v : List Nat) (block : List Nat) : List Nat :=
  let ws := (shaExtend h (h.rounds - 16) block.reverse).reverse
  let out := (((shaK1 ++ shaK2).map (shaTop h)).zip ws).foldl (fun v k => shaRound h v (k.1 + k.2)) v
  (v.zip out).map fun x => (x.1 + x.2) % 2 ^ h.w

/-- `n` chunks of `k` bytes. -/
def chunks (n k : Nat) (bs : Bytes) : List Bytes :=
  match n with
  | 0 => []
  | n + 1 => bs.take k :: chunks n k (bs.drop k)

/-- The padded message: a one bit, zeros, and the length in bits in the last two words. -/
def shaPad (h : Sha) (bs : Bytes) : Bytes :=
  let block := 2 * h.w
  let tail := h.w / 4
  let used := (bs.length + 1 + tail) % block
  bs ++ [0x80] ++ List.replicate ((block - used) % block) 0 ++ toBe tail (8 * bs.length)

/-- The hash of a byte string. -/
def sha (h : Sha) (bs : Bytes) : Bytes :=
  let p := shaPad h bs
  let blocks := chunks (p.length / (2 * h.w)) (2 * h.w) p
  let out := blocks.foldl (fun v b => shaBlock h v ((chunks 16 (h.w / 8) b).map beNat)) (shaH.map (shaTop h))
  out.flatMap (toBe (h.w / 8))

/-- SHA-256 (R534). -/
def sha256 (bs : Bytes) : Bytes := sha sha256Params bs

/-- SHA-512, of RFC 8032. -/
def sha512 (bs : Bytes) : Bytes := sha sha512Params bs

/-! ### Ed25519 (RFC 8032, section 5.1) -/

/-- The field's prime, 2^255 − 19. -/
def edP : Nat := 2 ^ 255 - 19

/-- The order of the base point. -/
def edL : Nat := 2 ^ 252 + 27742317777372353535851937790883648493

/-- b^e mod the field's prime, over the `n` low bits of the exponent. -/
def edPow (n b e : Nat) : Nat :=
  match n with
  | 0 => 1
  | n + 1 =>
    let r := edPow n (b * b % edP) (e / 2)
    if e % 2 = 1 then r * b % edP else r

/-- The inverse in the field; 0 of 0. -/
def edInv (x : Nat) : Nat := edPow 255 x (edP - 2)

/-- The constant of the curve, −121665/121666. -/
def edD : Nat := (edP - 121665) * edInv 121666 % edP

/-- A point (X, Y, Z, T) with x = X/Z, y = Y/Z, x · y = T/Z. -/
abbrev EdPoint := Nat × Nat × Nat × Nat

/-- The neutral point. -/
def edZero : EdPoint := (0, 1, 1, 0)

/-- Addition of points. -/
def edAdd (p q : EdPoint) : EdPoint :=
  let a := (p.2.1 + edP - p.1) * (q.2.1 + edP - q.1) % edP
  let b := (p.2.1 + p.1) * (q.2.1 + q.1) % edP
  let c := 2 * p.2.2.2 * q.2.2.2 % edP * edD % edP
  let d := 2 * p.2.2.1 * q.2.2.1 % edP
  let e := (b + edP - a) % edP
  let f := (d + edP - c) % edP
  let g := (d + c) % edP
  let h := (b + a) % edP
  (e * f % edP, g * h % edP, f * g % edP, e * h % edP)

/-- A multiple of a point over the `n` low bits of the factor. -/
def edMul (n k : Nat) (p : EdPoint) : EdPoint :=
  match n with
  | 0 => edZero
  | n + 1 =>
    let r := edMul n (k / 2) (edAdd p p)
    if k % 2 = 1 then edAdd r p else r

/-- Whether two points are the same. -/
def edSame (p q : EdPoint) : Bool :=
  p.1 * q.2.2.1 % edP = q.1 * p.2.2.1 % edP && p.2.1 * q.2.2.1 % edP = q.2.1 * p.2.2.1 % edP

/-- The x of a y and a sign bit, by the square root of (y² − 1) / (d · y² + 1); none where there is no point. -/
def edX (y sign : Nat) : Option Nat :=
  let u := (y * y + edP - 1) % edP
  let v := (edD * (y * y % edP) + 1) % edP
  let v3 := v * v % edP * v % edP
  let r := u * v3 % edP * edPow 255 (u * (v3 * v3 % edP * v % edP) % edP) ((edP - 5) / 8) % edP
  let w := v * (r * r % edP) % edP
  let x : Option Nat :=
    if w = u then some r
    else if (w + u) % edP = 0 then some (r * edPow 255 2 ((edP - 1) / 4) % edP)
    else none
  match x with
  | none => none
  | some x => if x = 0 && sign = 1 then none else some (if x % 2 = sign then x else edP - x)

/-- A point from its 32 bytes. -/
def edDecode (bs : Bytes) : Option EdPoint :=
  let n := leNat bs
  let y := n % 2 ^ 255
  if edP ≤ y then none else (edX y (n / 2 ^ 255)).map fun x => (x, y, 1, x * y % edP)

/-- The base point: y = 4/5, x even. -/
def edBase : EdPoint :=
  let y := 4 * edInv 5 % edP
  let x := (edX y 0).getD 0
  (x, y, 1, x * y % edP)

/-- Whether a 64-byte signature of a message verifies under a 32-byte key. -/
def ed25519Verify (key msg sig : Bytes) : Bool :=
  let s := leNat (slice sig 32 32)
  match edDecode (sig.take 32), edDecode key with
  | some r, some a =>
    let k := leNat (sha512 (sig.take 32 ++ key ++ msg)) % edL
    decide (s < edL) && edSame (edMul 4 8 (edMul 253 s edBase)) (edMul 4 8 (edAdd r (edMul 253 k a)))
  | _, _ => false

end Sys2Proof.Machine
end

