-- ==== Sys2Proof/Machine/Images.lean ====
section
/-! DEFINITION. Signed containers and the parts of a context image that are read without simulation: the container
(R533, R534), the part sequence and context header (R535), filter entries (R93), layouts (R179), the feature image
(R242) and the Garnet image (R254). -/

namespace Sys2Proof.Machine

/-! ### Containers (R533, R534) -/

/-- How a container fails: in its format, or in its key or signature. -/
inductive BoxFault where
  | format
  | key
  deriving DecidableEq, Repr

/-- The body of a container that passes the checks of R534, or the first check that fails: its length, its key and
signature, then MAGIC, VERSION, KIND and CTX. Reserved bytes and an IMAGE ID of zero fail with the format (DEDUCED,
notes/assumptions/23). -/
def openBox (keyHash : Bytes) (kind ctx length : Nat) (bs : Bytes) : Except BoxFault Bytes :=
  if length < 128 || length ≠ 128 + leAt bs 8 4 || bs.length < length then .error .format
  else
    let body := slice bs 128 (leAt bs 8 4)
    let key := slice bs 16 32
    if sha256 key ≠ keyHash || !ed25519Verify key (bs.take 64 ++ body) (slice bs 64 64) then .error .key
    else if leAt bs 0 4 ≠ 0x43534C55 || byteAt bs 4 ≠ 1 || (byteAt bs 5).toNat ≠ kind || (byteAt bs 6).toNat ≠ ctx
        || byteAt bs 7 ≠ 0 || leAt bs 12 4 = 0 || !zeroAt bs 48 16 then .error .format
    else .ok body

/-- IMAGE ID of a container. -/
def boxId (bs : Bytes) : BitVec 32 := BitVec.ofNat 32 (leAt bs 12 4)

/-- A fragment's body, or the abort code that refuses it (R534). -/
def fragmentBody (s : State) (kind c : Nat) (data : Bytes) : Except (BitVec 32) Bytes :=
  match openBox s.sys.keyHash kind c data.length data with
  | .ok b => .ok b
  | .error .format => .error abRange
  | .error .key => .error abSign

/-! ### Parts (R535) -/

/-- `n` records of `k` bytes from the front of a byte string, read by `f`; none where one fails or the bytes run out. -/
def readRecords {α : Type} (f : Bytes → Option α) (k n : Nat) (bs : Bytes) : Option (List α) :=
  match n with
  | 0 => some []
  | n + 1 =>
    if bs.length < k then none
    else match f (bs.take k), readRecords f k n (bs.drop k) with
      | some x, some l => some (x :: l)
      | _, _ => none

/-- The parts of a body, by ID: each header whole, its reserved bytes zero, IDs of the table in increasing order, and
the padding zero. -/
def readParts (n last : Nat) (bs : Bytes) : Option (List (Nat × Bytes)) :=
  match n with
  | 0 => if bs.isEmpty then some [] else none
  | n + 1 =>
    if bs.isEmpty then some []
    else
      let id := leAt bs 0 2
      let len := leAt bs 4 4
      let room := cdiv len 8 * 8
      if bs.length < 8 + room || id ≤ last || 9 < id || !zeroAt bs 2 2 || !zeroAt bs (8 + len) (room - len) then none
      else (readParts n id (bs.drop (8 + room))).map ((id, slice bs 8 len) :: ·)

/-- The data of a part; none where it is missing. -/
def partOf (ps : List (Nat × Bytes)) (id : Nat) : Option Bytes := (ps.find? fun x => x.1 = id).map (·.2)

/-- The instrument ranges of a context header: inside the 16,384 instruments, none overlapping another. -/
def readHeader (bs : Bytes) : Option (List (Nat × Nat)) :=
  let n := leAt bs 0 2
  if bs.length ≠ 2 + 4 * n then none
  else match readRecords (fun r => some (leAt r 0 2, leAt r 2 2)) 4 n (bs.drop 2) with
    | none => none
    | some rs =>
      let apart := rs.zipIdx.all fun a => rs.zipIdx.all fun b =>
        a.2 = b.2 || a.1.1 + a.1.2 ≤ b.1.1 || b.1.1 + b.1.2 ≤ a.1.1 || a.1.2 = 0 || b.1.2 = 0
      if apart && rs.all (fun r => r.1 + r.2 ≤ 16384) then some rs else none

/-- The filter entries of an image: port, index and entry, each acceptable under R93. An image's entries belong to its
context, as OWNER 1 with its CTX (R12, R99), and no port and index is named twice. -/
def readFilters (s : State) (c : Nat) (bs : Bytes) : Option (List (Nat × Nat × BitVec 256)) :=
  if bs.length % 40 ≠ 0 then none
  else
    match readRecords (fun r =>
      let e := BitVec.ofNat 256 (leNat (r.drop 8))
      let w0 := filterWord e 0
      if byteAt r 0 < 8 && zeroAt r 2 6 && filterOk s e
          && (!bit w0 31 || (bits w0 30 29 = 1 && bits w0 23 18 = c)) then
        some ((byteAt r 0).toNat, (byteAt r 1).toNat, e)
      else none) 40 (bs.length / 40) bs with
    | none => none
    | some l => if (l.map fun x => (x.1, x.2.1)).eraseDups.length = l.length then some l else none

/-! ### Layouts (R176–R179) -/

/-- A field entry. -/
def readField (b : Bytes) : Option FieldEntry :=
  let fl := (byteAt b 4).toNat
  let f : FieldEntry :=
    { off := leAt b 0 2, kind := (byteAt b 2).toNat, width := (byteAt b 3).toNat, be := bit fl 0, used := bit fl 1,
      uns := bit fl 2, shift := (byteAt b 5).toNat, count := (byteAt b 6).toNat }
  let kindOk := match f.kind with
    | 1 => f.shift = 0 && f.count = 0
    | 2 => f.shift = 0 && f.count = 0
    | 3 => f.shift ≤ 18 && f.count = 0
    | 4 => f.count ≠ 0 && f.shift + f.count ≤ 8 * f.width
    | 5 => f.shift = 0 && f.count = 0 && f.width = 8
    | _ => false
  if kindOk && fl < 8 && byteAt b 7 = 0 && (!f.uns || f.kind = 3) && 1 ≤ f.width && f.width ≤ 8 && f.off + f.width ≤ 9600 then
    some f
  else none

/-- A layout descriptor at the front of a byte string. -/
def readLayout (b : Bytes) : Option Layout :=
  let fl := (byteAt b 1).toNat
  let n := (byteAt b 6).toNat
  let lp := (byteAt b 13).toNat
  if b.length < 32 + 8 * n || n = 0 || 48 < n then none
  else match readRecords readField 8 n (b.drop 32) with
    | none => none
    | some fs =>
      let l : Layout :=
        { valid := bit fl 0, verified := bit fl 1, lsrc := bits fl 3 2, filter := (byteAt b 2).toNat,
          typeOff := (byteAt b 4).toNat, type := byteAt b 5, pkind := (byteAt b 7).toNat, pindex := (byteAt b 8).toNat,
          symf := (byteAt b 9).toNat, pskip := leAt b 10 2, lpsize := (byteAt b 12).toNat, lpbe := bit lp 0, lpinc := bit lp 1,
          flen := leAt b 14 2, fields := fs, raw := b.take (32 + 8 * n) }
      let symOk := match fs[l.symf]? with
        | none => false
        | some f => f.kind = 5 && !(f.off ≤ l.typeOff && l.typeOff < f.off + 8)
      if byteAt b 0 = 1 && fl < 16 && byteAt b 3 = 0 && lp < 4 && zeroAt b 16 16
          && l.pskip ≤ 1024 && [0, 1, 2, 4].contains l.lpsize && symOk
          && 1 ≤ l.pkind && l.pkind ≤ 3 && l.pindex < 8
          && l.lsrc ≠ 3 && (l.lsrc ≠ 2 || l.verified)
          && (if l.lsrc = 1 then 64 ≤ l.flen && l.flen ≤ 9600 else l.flen = 0) then some l
      else none

/-- The layouts of the part, up to 8, each after its number. -/
def readLayouts (n : Nat) (bs : Bytes) : Option (List (Nat × Layout)) :=
  if bs.isEmpty then some []
  else match n with
    | 0 => none
    | n + 1 =>
      if !(byteAt bs 0 < 8 && zeroAt bs 1 7) then none
      else match readLayout (bs.drop 8) with
        | none => none
        | some l => (readLayouts n (bs.drop (8 + l.raw.length))).map (((byteAt bs 0).toNat, l) :: ·)

/-- The rules of R175 between two layouts of a context. -/
def layoutsAgree (a b : Layout) : Bool :=
  a.filter ≠ b.filter ||
    (a.typeOff = b.typeOff && a.pskip = b.pskip && a.lpsize = b.lpsize && a.lpbe = b.lpbe && a.lpinc = b.lpinc
      && a.lsrc = b.lsrc && a.flen = b.flen && a.type ≠ b.type)

/-- The layout part: distinct numbers, and R175. -/
def readLayoutPart (bs : Bytes) : Option (List (Nat × Layout)) :=
  match readLayouts 8 bs with
  | none => none
  | some l =>
    if (l.map (·.1)).eraseDups.length = l.length
        && l.zipIdx.all fun a => l.zipIdx.all fun b => a.2 = b.2 || layoutsAgree a.1.2 b.1.2 then some l
    else none

/-! ### The feature image (R238–R242) -/

/-- Whether a binary32 is finite. -/
def finite32 (x : Nat) : Bool := bits x 30 23 ≠ 255

/-- Whether a binary32 is a NaN. -/
def isNan32 (x : Nat) : Bool := bits x 30 23 = 255 && bits x 22 0 ≠ 0

/-- A slot descriptor (R239). -/
def readSlotDesc (b : Bytes) : Option SlotDesc :=
  let d : SlotDesc :=
    { kind := (byteAt b 0).toNat, fmt := (byteAt b 1).toNat, srcf := (byteAt b 2).toNat, lmask := (byteAt b 3).toNat,
      param := (byteAt b 4).toNat }
  if 1 ≤ d.kind && d.kind ≤ 6 && d.fmt ≤ 1 && zeroAt b 5 3
      && (d.srcf < 48 || (d.srcf = 0xFF && d.kind = 4))
      && (match d.kind with | 2 => true | 3 => 1 ≤ d.param && d.param ≤ 15 && d.fmt = 1 | 4 => d.param = 0 && d.fmt = 0 | _ => d.param = 0)
  then some d else none

/-- A feature entry (R240), as far as it stands alone. -/
def readFeature (b : Bytes) : Option FeatEntry :=
  let f : FeatEntry :=
    { src := (byteAt b 0).toNat, sel := (byteAt b 1).toNat, lmask := (byteAt b 2).toNat, out := (byteAt b 3).toNat,
      p0 := leAt b 4 2, p1 := leAt b 6 2, a := BitVec.ofNat 32 (leAt b 8 4), b := BitVec.ofNat 32 (leAt b 12 4) }
  let selOk := match f.src with | 1 => f.sel < 48 | 2 => f.sel < 32 | 3 => f.sel < 16 | _ => f.sel = 0
  let cross := f.src = 6 || f.src = 7
  let affine := f.out ≠ 0 && !cross
  if 1 ≤ f.src && f.src ≤ 7 && f.out ≤ 2 && selOk && (f.src = 1 || f.lmask = 0)
      && (if cross then (if f.src = 6 then f.out = 0 else f.out ≠ 0) else if f.out = 0 then f.p1 ≤ 255 else f.p0 = 0 && f.p1 = 0)
      && (if affine then finite32 f.a.toNat && finite32 f.b.toNat else f.a = 0 && f.b = 0) then some f
  else none

/-- Whether the operands of a cross are as R226–R228 ask. -/
def crossOk (fs : List FeatEntry) (f : FeatEntry) : Bool :=
  if f.src = 6 || f.src = 7 then
    match fs[f.p0]?, fs[f.p1]? with
    | some a, some b =>
      a.src ≤ 5 && b.src ≤ 5
        && (if f.src = 6 then a.out = 0 && b.out = 0 && a.p1 * b.p1 ≤ 255 else a.out ≠ 0 && b.out ≠ 0)
    | _, _ => false
  else true

/-- The feature image, as far as it does not refer to the layouts. -/
def readFeatImage (bs : Bytes) : Option FeatImage :=
  let ns := (byteAt bs 1).toNat
  let nf := leAt bs 2 2
  let ne := leAt bs 4 2
  let ng := leAt bs 8 4
  let evo := 32 + 8 * ns + 16 * nf
  let evr := cdiv ne 8 * 8
  if bs.length < 32 || byteAt bs 0 ≠ 1 || 32 < ns || 256 < nf || 64 < ne || 65024 < ng || !zeroAt bs 6 2 || !zeroAt bs 12 20
      || bs.length ≠ evo + evr + 8 * ng || !zeroAt bs (evo + ne) (evr - ne) then none
  else
    match readRecords readSlotDesc 8 ns (bs.drop 32), readRecords readFeature 16 nf (bs.drop (32 + 8 * ns)),
        readRecords (fun b => some (BitVec.ofNat 64 (leNat b))) 8 ng (bs.drop (evo + evr)) with
    | some slots, some feats, some edges =>
      let events := (slice bs evo ne).map (·.toNat)
      let refs := slots.all fun d => d.kind ≠ 2 ||
        (match slots[d.param]? with
          | none => false
          | some r => r.kind = 1 && r.fmt = d.fmt && r.srcf = d.srcf && r.lmask = d.lmask)
      if refs && feats.all (fun f => (f.src ≠ 2 || f.sel < ns) && crossOk feats f)
          && events.all (fun k => match feats[k]? with | none => false | some f => f.src = 1 || f.src = 2) then
        some { slots := slots, feats := feats, events := events, edges := edges, raw := bs }
      else none
    | _, _, _ => none

/-- The type in which a feature's edges are ordered, for each layout that feeds it (R223): signed, unsigned, or
binary32. -/
inductive EdgeType where
  | int
  | nat
  | f32
  deriving DecidableEq, Repr

/-- The field that a layout number gives an index; none where the image has no such layout. -/
def layoutField (ls : List (Nat × Layout)) (l k : Nat) : Option (Option FieldEntry) :=
  (ls.find? fun x => x.1 = l).map fun x => x.2.fields[k]?

/-- The layouts of a mask. -/
def maskLayouts (ls : List (Nat × Layout)) (mask : Nat) : List Layout := (ls.filter fun x => bit mask x.1).map (·.2)

/-- Whether field `k` is a source in every layout of a mask: it exists and is no SYMBOL (R242). -/
def sourceOk (ls : List (Nat × Layout)) (mask k : Nat) : Bool :=
  (maskLayouts ls mask).all fun l => match l.fields[k]? with | none => false | some f => f.kind ≠ 5

/-- The edge types of a BIN feature. -/
def edgeTypes (ls : List (Nat × Layout)) (im : FeatImage) (f : FeatEntry) : List EdgeType :=
  match f.src with
  | 1 => ((maskLayouts ls f.lmask).filterMap fun l => (l.fields[f.sel]?).map fun g =>
      if g.kind = 2 || (g.kind = 3 && !g.uns) then EdgeType.int else .nat).eraseDups
  | 2 => match im.slots[f.sel]? with | some d => [if d.fmt = 0 then .int else .f32] | none => []
  | 3 => [.f32]
  | _ => [.nat]

/-- Whether edge `a` lies below edge `b` in a type; an F32 edge is no NaN and its upper bytes are zero. -/
def edgeLess (t : EdgeType) (a b : BitVec 64) : Bool :=
  match t with
  | .int => decide (a.toInt < b.toInt)
  | .nat => decide (a.toNat < b.toNat)
  | .f32 => ltVal (dec32 (a.setWidth 32)) (dec32 (b.setWidth 32))

/-- Whether an edge may stand in a type. -/
def edgeValid (t : EdgeType) (a : BitVec 64) : Bool :=
  match t with
  | .f32 => a.toNat < 2 ^ 32 && !isNan32 a.toNat
  | _ => true

/-- Whether the edges of a feature are in range and strictly increasing (R242). -/
def edgesOk (ls : List (Nat × Layout)) (im : FeatImage) (f : FeatEntry) : Bool :=
  if f.out ≠ 0 || 6 ≤ f.src || f.p1 ≤ 1 then true
  else
    let es := featEdgesOf im f
    f.p0 + (f.p1 - 1) ≤ im.edges.length
      && (edgeTypes ls im f).all fun t => es.all (edgeValid t) && (es.zip es.tail).all fun x => edgeLess t x.1 x.2
where
  /-- The edges of the feature. -/
  featEdgesOf (im : FeatImage) (f : FeatEntry) : List (BitVec 64) := (im.edges.drop f.p0).take (f.p1 - 1)

/-- The checks of the feature image against the layouts (R242). -/
def featureChecks (ls : List (Nat × Layout)) (im : FeatImage) : Bool :=
  im.slots.all (fun d => d.srcf = 0xFF || sourceOk ls d.lmask d.srcf)
    && im.feats.all fun f => (f.src ≠ 1 || sourceOk ls f.lmask f.sel) && edgesOk ls im f

/-- Edges that the loaded contexts hold (R243). -/
def edgesInUse (s : State) : Nat :=
  (s.ctxs.map fun x => match x.2.image with | none => 0 | some m => m.feat.edges.length).sum

/-! ### The Garnet image (R247–R254) -/

/-- A node word by itself (R248). -/
def nodeOk (w : Nat) : Bool :=
  w < 2 ^ 28 && bits w 9 0 < 256
    && (if bit w 26 then !(bits w 24 20 = 31 && bits w 19 10 ≠ 0) else bits w 25 18 = 0)

/-- A rule entry (R253). -/
def readRule (argmax : Bool) (b : Bytes) : Option Rule :=
  let op := (byteAt b 0).toNat
  let choice := leAt b 12 2
  if op ≤ 2 && (!argmax || op = 0) && byteAt b 1 &&& 0xEC = 0 && byteAt b 2 &&& 0xAC = 0 && byteAt b 3 = 0 && zeroAt b 14 2
      && !isNan32 (leAt b 4 4) && !isNan32 (leAt b 8 4) && (bit (byteAt b 2).toNat 6 || leAt b 8 4 = 0)
      && (choice < 4096 || choice = 0xFFFF) then
    some { op := op, testA := byteAt b 1, testB := byteAt b 2, thrA := BitVec.ofNat 32 (leAt b 4 4),
           thrB := BitVec.ofNat 32 (leAt b 8 4), choice := BitVec.ofNat 16 choice }
  else none

/-- A tree record (R247): its nodes and leaf vectors. -/
def readTree (d w : Nat) (b : Bytes) : Option Tree :=
  let n := 2 ^ d - 1
  match readRecords (fun x => if nodeOk (leNat x) then some (BitVec.ofNat 32 (leNat x)) else none) 4 n b,
      readRecords (readRecords (fun x => if bits (leNat x) 14 10 = 31 then none else some (BitVec.ofNat 16 (leNat x))) 2 w)
        (2 * w) (2 ^ d) (b.drop (4 * n)) with
  | some nodes, some leaves => some { nodes := nodes, leaves := leaves }
  | _, _ => none

/-- An ensemble record with its trees in a tree part (R252). -/
def readEnsemble (rec trees : Bytes) : Option Ensemble :=
  let d := (byteAt rec 0).toNat
  let w := (byteAt rec 1).toNat
  let mode := (byteAt rec 2).toNat
  let nt := leAt rec 4 2
  let pw := leAt rec 6 2
  let toff := leAt rec 24 4
  let size := 4 * (2 ^ d - 1) + 2 * w * 2 ^ d
  let bias := (List.range 4).map fun e => leAt rec (8 + 4 * e) 4
  if d = 0 || 10 < d || !([1, 2, 4].contains w) || 1 < mode || byteAt rec 3 ≠ 0 || !zeroAt rec 28 4 || 32768 < nt
      || pw = 0 || 512 < pw || toff % 4 ≠ 0 || trees.length < toff + nt * size
      || !(bias.zipIdx.all fun b => if b.2 < w then finite32 b.1 else b.1 = 0) then none
  else match readRecords (readRule (mode = 1)) 16 16 (rec.drop 32), readRecords (readTree d w) size nt (trees.drop toff) with
    | some rules, some ts =>
      some { depth := d, lw := w, argmax := mode = 1, ntrees := nt, pw := pw, bias := bias.map (BitVec.ofNat 32 ·),
             toff := toff, rules := rules, trees := ts, raw := rec.take 288 }
    | _, _ => none

/-- The parsed Garnet part: its ensembles, and the ensemble of each valid program entry. -/
structure GarnetPart where
  ensembles : List Ensemble
  progs : List (Option Nat)
  raw : Bytes
  deriving DecidableEq, Repr

/-- A context without a Garnet part (R535). -/
def GarnetPart.empty : GarnetPart := { ensembles := [], progs := List.replicate 16 none, raw := [] }

/-- The Garnet part, as far as it stands alone (R251–R254). -/
def readGarnet (bs : Bytes) : Option GarnetPart :=
  let n := (byteAt bs 1).toNat
  let tb := leAt bs 4 4
  let progs := (slice bs 8 16).map fun p => if bit p.toNat 7 then some (p.toNat % 16) else none
  if bs.length < 32 || byteAt bs 0 ≠ 1 || 16 < n || !zeroAt bs 2 2 || tb % 4 ≠ 0 || !zeroAt bs 24 8
      || bs.length ≠ 32 + 288 * n + tb || (slice bs 8 16).any (fun p => p &&& 0x70 ≠ 0)
      || progs.any (fun p => match p with | some k => n ≤ k | none => false) then none
  else match readRecords (fun r => readEnsemble r (bs.drop (32 + 288 * n))) 288 n (bs.drop 32) with
    | none => none
    | some es =>
      let apart := es.zipIdx.all fun a => es.zipIdx.all fun b =>
        a.2 = b.2 || a.1.ntrees = 0 || b.1.ntrees = 0
          || a.1.toff + ensBytes a.1 ≤ b.1.toff || b.1.toff + ensBytes b.1 ≤ a.1.toff
      if apart then some { ensembles := es, progs := progs, raw := bs } else none

/-- Whether the CMODE of every node matches the OUT of its feature, where the context has that feature (R254). -/
def nodesMatch (feats : List FeatEntry) (e : Ensemble) : Bool :=
  e.trees.all fun t => t.nodes.all fun w =>
    match feats[nodeFeat w]? with
    | none => true
    | some f => bit w.toNat 26 == (f.out != 0)

/-- Whether the CHOICE of every rule entry, whether or not it can ever decide, is a no-send or a template of the image (R254). -/
def choicesPresent (templates : Nat) (e : Ensemble) : Bool :=
  e.rules.all fun r => r.choice = 0xFFFF || r.choice.toNat < templates

/-- Pass count within the limit of R254. -/
def passesOk (s : State) (e : Ensemble) : Bool :=
  e.ntrees = 0 || (passWidth s e ≠ 0 && passCount s e ≤ 64)

end Sys2Proof.Machine
end

