-- ==== Sys2Proof/Machine/HearthImages.lean ====
section
/-! DEFINITION. The configuration image (12): its reading (R374, R376, R397), and the load checks of R341, R378 and R398
that need no simulation. -/

namespace Sys2Proof.Machine

/-! ### Reading (R340, R374, R376, R397) -/

/-- A unit entry. -/
def readUnit (b : Bytes) : UnitEntry :=
  { kind := (byteAt b 0).toNat, op := (byteAt b 1).toNat, flags := byteAt b 2, initn := (byteAt b 3).toNat % 16,
    mode := (byteAt b 3).toNat / 16, count := leAt b 4 2, sel := leAt b 6 2, imm := BitVec.ofNat 64 (leAt b 8 8), raw := b }

/-- A unit record: its site and entry. -/
def readUnitRecord (b : Bytes) : Option (Nat × UnitEntry) :=
  if leAt b 0 2 ≤ 3071 && zeroAt b 2 2 then some (leAt b 0 2, readUnit (slice b 4 16)) else none

/-- A circuit entry; none where SLOT, NHOP or a reserved bit breaks R373 or R374. -/
def readCircuit (b : Bytes) : Option Circuit :=
  let sw := leAt b 0 2
  let dw := leAt b 2 2
  let sl := (byteAt b 4).toNat
  let n := (byteAt b 5).toNat
  let qx := (byteAt b 6).toNat
  let route := leAt b 8 8
  let slot := sl % 4
  let width := bits sl 3 2
  if bits sw 15 13 ≠ 0 || bits dw 15 14 ≠ 0 || bits sl 7 4 ≠ 0 || 2 < width || (width = 1 && 1 < slot)
      || (width = 2 && slot ≠ 0) || n = 0 || 32 < n || 3 < qx || byteAt b 7 ≠ 0 || 4 ^ n ≤ route || bits dw 13 12 = 3 then none
  else some { src := sw % 4096, out := bits sw 12 12, dst := dw % 4096, inp := bits dw 13 12, slot := slot, width := 2 ^ width,
              nhop := n, qx := qx, route := BitVec.ofNat 64 route }

/-- A spread entry; none where a reserved bit or a range breaks R397. -/
def readSpread (b : Bytes) : Option Spread :=
  let cr := (byteAt b 2).toNat
  if bit cr 7 || bits (leAt b 8 2) 15 10 ≠ 0 || bits (byteAt b 10).toNat 7 4 ≠ 0 || 64 < (byteAt b 11).toNat
      || 10000 < leAt b 12 2 || byteAt b 15 = 0 then none
  else some { site := leAt b 0 2, circ := cr % 16, program := bits cr 6 4, epoch := (byteAt b 3).toNat, x := leAt b 4 2,
              y := leAt b 6 2, hop := leAt b 8 2, rcirc := (byteAt b 10).toNat, cred := (byteAt b 11).toNat,
              rtime := leAt b 12 2, rsrc := (byteAt b 14).toNat, tpm := (byteAt b 15).toNat }

/-- A memory descriptor: of a MEM or SFU site, with a length and alignment of R376. -/
def readMemDesc (b : Bytes) : Option MemDesc :=
  let site := leAt b 0 2
  let d : MemDesc := { site := site, off := leAt b 4 4, len := leAt b 8 4, dst := leAt b 12 4 }
  if 3071 < site || !zeroAt b 2 2 || d.off % 8 ≠ 0 || d.dst % 8 ≠ 0 then none
  else if siteKind site = 4 then (if 8 ≤ d.len && d.len ≤ 16384 then some d else none)
  else if siteKind site = 3 then (if d.len = 2048 then some d else none)
  else none

/-- A program entry. -/
def readHProgram (b : Bytes) : Option HProgram :=
  if bits (byteAt b 0).toNat 7 2 ≠ 0 || byteAt b 1 ≠ 0 || !zeroAt b 4 12 then none
  else some { valid := bit (byteAt b 0).toNat 0, bound := bit (byteAt b 0).toNat 1, cout := leAt b 2 2 }

/-- The counts of a configuration header: NUNIT, NCIRC, NSPR, NMEM and MBYTES; none where one is out of range (R376). -/
def readConfigCounts (b : Bytes) : Option (Nat × Nat × Nat × Nat × Nat) :=
  let nu := leAt b 2 2
  let nc := leAt b 4 2
  let ns := leAt b 6 2
  let nm := leAt b 8 2
  let mb := leAt b 12 4
  if b.length < 64 || byteAt b 0 ≠ 1 || bits (byteAt b 1).toNat 7 1 ≠ 0 || !zeroAt b 10 2 || !zeroAt b 16 48
      || 3072 < nu || 9216 < nc || 256 < ns || 768 < nm || mb % 8 ≠ 0
      || b.length ≠ 64 + 128 + 20 * nu + 16 * nc + 16 * ns + 16 * nm + mb then none
  else some (nu, nc, ns, nm, mb)

/-- The configuration of an image: `none` for a malformed one, `some none` where V is 0. -/
def readConfig (b : Bytes) : Option (Option HConfig) :=
  match readConfigCounts b with
  | none => none
  | some (nu, nc, ns, nm, mb) =>
    let o1 := 192 + 20 * nu
    let o2 := o1 + 16 * nc
    let o3 := o2 + 16 * ns
    let o4 := o3 + 16 * nm
    match readRecords readHProgram 16 8 (b.drop 64), readRecords readUnitRecord 20 nu (b.drop 192),
          readRecords readCircuit 16 nc (b.drop o1), readRecords readSpread 16 ns (b.drop o2),
          readRecords readMemDesc 16 nm (b.drop o3) with
    | some ps, some us, some cs, some ss, some ms =>
      if !bit (byteAt b 1).toNat 0 then some none
      else if (us.map (·.1)).eraseDups.length ≠ us.length || us.any fun u => u.2.kind = 0 && !zeroAt u.2.raw 0 16 then none
      else some (some { progs := ps, units := us.filter fun u => u.2.kind ≠ 0,
                        unused := (us.filter fun u => u.2.kind = 0).map (·.1), circuits := cs, spreads := ss, mems := ms,
                        data := slice b o4 mb, figures := [] })
    | _, _, _, _, _ => none

/-! ### Opcode tables (R341, R349, R351, R358, R363, R367) -/

/-- Inputs that an opcode uses, and its outputs; none for an opcode outside its table. -/
def opInputs (kind op : Nat) : Option (List Nat × List Nat) :=
  match kind with
  | 1 => if op = 5 then some ([0], [0]) else if 1 ≤ op && op ≤ 6 then some ([0, 1], [0]) else none
  | 2 =>
    match op with
    | 2 => some ([0, 1, 2], [0])
    | 3 => some ([0, 2], [0])
    | 4 => some ([0, 2], [0, 1])
    | 5 => some ([0, 1, 2], [0])
    | 11 => some ([0], [0])
    | 12 => some ([0], [0])
    | 13 => some ([0], [0])
    | _ => if op = 1 || (6 ≤ op && op ≤ 10) then some ([0, 1], [0]) else none
  | 3 => if (1 ≤ op && op ≤ 9) || op = 0x10 then some ([0], [0]) else none
  | 4 =>
    match op with
    | 1 => some ([0, 1, 2], [0, 1])
    | 2 => some ([0, 1], [0])
    | 3 => some ([0], [0])
    | 4 => some ([1, 2], [1])
    | _ => none
  | 5 =>
    match op with
    | 1 => some ([], [0])
    | 2 => some ([0, 1, 2], [])
    | 3 => some ([0], [])
    | 4 => some ([], [0])
    | 5 => some ([0, 1], [0])
    | 6 => some ([0, 1], [0])
    | _ => none
  | _ => none

/-- Lanes of a MAC lane mode (R348). -/
def laneCount (mode : Nat) : Nat := match mode with | 0 => 1 | 1 => 2 | _ => 4

/-- MODE in its opcode table (R340, R348, R363). -/
def modeOk (u : UnitEntry) : Bool :=
  match u.kind with
  | 1 => match u.mode with
    | 0 => true
    | 1 => u.op ≠ 6
    | 2 => u.op = 4 || u.op = 5
    | _ => false
  | 4 => match u.op with
    | 2 => u.mode = 0 || u.mode = 1 || u.mode = 15
    | 4 => 2 ≤ u.mode && u.mode ≤ 4
    | _ => u.mode ≤ 4 || u.mode = 15
  | 5 => if u.op = 1 || u.op = 2 then u.mode ≤ 7 else u.mode = 0
  | _ => u.mode = 0

/-- COUNT in its opcode table; zero where the opcode has none. -/
def countOk (u : UnitEntry) : Bool :=
  match u.kind, u.op with
  | 1, 4 => (u.count + 1) * laneCount u.mode ≤ 65536
  | 1, 5 => (u.count + 1) * laneCount u.mode ≤ 65536
  | 2, 5 => true
  | 2, 12 => true
  | 2, 13 => true
  | 4, 3 => true
  | 4, 4 => true
  | _, _ => u.count = 0

/-- SEL in its opcode table; zero where the opcode has none. -/
def selOk (u : UnitEntry) : Bool :=
  match u.kind, u.op with
  | 2, 1 => u.sel < 32 && bits u.sel 4 3 ≠ 3
  | 2, 6 => u.sel < 16
  | 2, 7 => u.sel ≤ 4
  | 2, 8 => u.sel ≤ 2
  | 2, 9 => u.sel ≤ 1
  | 2, 10 => u.sel < 8 && bits u.sel 2 1 ≠ 3
  | 2, 11 => u.sel ≤ 5
  | 4, 3 => true
  | 5, 1 => u.sel < 0x104 || (0x110 ≤ u.sel && u.sel ≤ 0x114)
  | 5, 3 => u.sel < 16
  | 5, 4 => u.sel < 16
  | 5, 5 => true
  | 5, 6 => true
  | _, _ => u.sel = 0

/-- The checks of R341 on a unit entry at its site. -/
def unitOk (site : Nat) (u : UnitEntry) : Bool :=
  match opInputs u.kind u.op with
  | none => false
  | some (ins, _) =>
    let imms := [0, 1, 2].filter fun k => isImm u k
    u.kind = siteKind site && modeOk u && countOk u && selOk u && bits u.flags.toNat 7 6 = 0
      && imms.length ≤ 1 && (imms.all fun k => ins.contains k)
      && u.initn ≤ 8 && (u.initn = 0 || (ins.contains 2 && !isImm u 2))

/-! ### Graph checks (R368, R377, R378) -/

/-- Logical columns that are unusable (0x2800:09). -/
def columnUnusable (s : State) (col : Nat) : Bool := bit (val s 0x2800 9) col

/-- Whether a circuit joins an output of a unit to an input that its destination's opcode uses, along a route on the grid. -/
def circuitOk (g : HConfig) (c : Circuit) : Bool :=
  match unitAt g c.src, unitAt g c.dst with
  | some a, some b =>
    match opInputs a.kind a.op, opInputs b.kind b.op with
    | some (_, outs), some (ins, _) =>
      outs.contains c.out && ins.contains c.inp
        && (match routeLinks c.route c.nhop 0 c.src with | none => false | some x => x.2 = c.dst)
    | _, _ => false
  | _, _ => false

/-- Circuits into an input. -/
def circuitsInto (g : HConfig) (site inp : Nat) : Nat := (g.circuits.filter fun c => c.dst = site && c.inp = inp).length

/-- Whether every used input that is not immediate has exactly one circuit. Each side of an LDST unit may be unconnected
(R363), and its write side is refused in a block mode. -/
def inputsFed (g : HConfig) (site : Nat) (u : UnitEntry) : Bool :=
  match opInputs u.kind u.op with
  | none => false
  | some (ins, _) =>
    let need := ins.filter fun k => !isImm u k
    let n (k : Nat) := circuitsInto g site k
    if u.kind = 4 && u.op = 1 then
      let w := need.filter (· ≠ 0)
      (need.all fun k => n k ≤ 1) && ((w.all fun k => n k = 1) || (w.all fun k => n k = 0))
        && !(2 ≤ u.mode && u.mode ≤ 4 && (w.any (fun k => n k = 1) || isImm u 1 || isImm u 2))
    else need.all fun k => n k = 1

/-- Width in use on every link: no link carries more than its four slots. -/
def linksFit (g : HConfig) : Bool :=
  let uses := g.circuits.flatMap fun c => (circuitLinks c).map fun l => (4 * l.1 + l.2, c.width)
  let t := uses.foldl (fun t u => tabPut t u.1 (tabGet 0 t u.1 + u.2)) ([] : Tab Nat)
  t.all fun x => x.2 ≤ 4

/-- The programs that have units. -/
def programsUsed (g : HConfig) : List (Nat × List Nat) := (List.range 8).map fun k => (k, programSites g k)

/-- A program has a FIN unit and exactly one COUT unit, which is the one its entry names (R368). -/
def programOk (g : HConfig) (k : Nat) : Bool :=
  let fins := g.units.filter fun u => u.2.kind = 5 && u.2.op = 1 && u.2.mode = k
  let couts := g.units.filter fun u => u.2.kind = 5 && u.2.op = 2 && u.2.mode = k
  match g.progs[k]? with
  | none => false
  | some p =>
    if !p.valid && (programSites g k).isEmpty && couts.isEmpty then true
    else !fins.isEmpty && couts.length = 1 && (!p.valid || (couts.map (·.1)) = [p.cout])
      && (couts.all fun u => (programSites g k).contains u.1)

/-- Memory descriptors lie in the data and in their units' memories, and none overlaps another of its unit. -/
def memsOk (g : HConfig) : Bool :=
  (g.mems.all fun m => m.off + m.len ≤ g.data.length && m.dst + m.len ≤ (if siteKind m.site = 3 then 2048 else 16384)) &&
  g.mems.zipIdx.all fun a => g.mems.zipIdx.all fun b =>
    a.2 = b.2 || a.1.site ≠ b.1.site || a.1.dst + a.1.len ≤ b.1.dst || b.1.dst + b.1.len ≤ a.1.dst

/-- Counters named by KWAIT and KINC units lie in the context's range (R25, R463). -/
def countersOk (range : Nat × Nat) (g : HConfig) : Bool :=
  g.units.all fun u =>
    !(u.2.kind = 5 && (u.2.op = 5 || u.2.op = 6)) || (range.1 ≤ u.2.sel && u.2.sel < range.1 + range.2)

/-- Spread entries (R397, R398): one for each FLO and FLI unit, of its circuit and program, its channel usable; a program
with spread entries in a live-mode context is refused; every far end answers its probe in time. -/
def spreadsOk (s : State) (live : Bool) (g : HConfig) (probes : List Nat) : Bool :=
  (g.units.all fun u => !(u.2.kind = 5 && (u.2.op = 3 || u.2.op = 4)) || (g.spreads.filter fun e => e.site = u.1).length = 1)
    && (!live || g.spreads.isEmpty)
    && g.spreads.zipIdx.all fun x =>
      let e := x.1
      match unitAt g e.site with
      | none => false
      | some u =>
        let flo := u.kind = 5 && u.op = 3
        let fli := u.kind = 5 && u.op = 4
        (flo || fli) && u.sel = e.circ && siteProgram g e.site = some e.program
          && (if flo then 1 ≤ e.cred && e.rtime = 0 && e.rsrc = 0
              else e.cred = 0 && (match g.spreads[e.rsrc]? with
                | none => false
                | some f => match unitAt g f.site with | none => false | some v => v.kind = 5 && v.op = 3))
          && (chanAt s (siteChannel e.site)).state ≠ .retired
          && (match probes[x.2]? with | none => false | some t => t ≤ 80000 + 2400 * e.hop)

/-- The checks of R378 but for the proof of bounded programs. -/
def configOk (s : State) (live : Bool) (range : Nat × Nat) (g : HConfig) (probes : List Nat) : Bool :=
  let progs := programsUsed g
  (g.units.all fun u => unitOk u.1 u.2 && !columnUnusable s (siteCol u.1) && inputsFed g u.1 u.2)
    && (g.unused.all fun k => !columnUnusable s (siteCol k))
    && (g.circuits.all fun c => circuitOk g c && (circuitLinks c).all fun l => !columnUnusable s (siteCol l.1))
    && (g.units.all fun u => (circuitsFrom g u.1 0).length ≤ 4 && (circuitsFrom g u.1 1).length ≤ 4)
    && linksFit g
    && ((List.range 8).all fun k => programOk g k)
    && (g.units.all fun u => (progs.filter fun p => p.2.contains u.1).length = 1)
    && memsOk g && countersOk range g && spreadsOk s live g probes

/-! ### Space (R375, R383) -/

/-- Bytes that a configuration takes in column group `k` of the store: those of its unit records, the unused sites' among
them, circuits, spread entries and memory data there (R383). -/
def storeCharge (g : HConfig) (k : Nat) : Nat :=
  16 * ((g.units.map (·.1) ++ g.unused).filter fun x => siteGroup x = k).length + 16 * (g.circuits.filter fun c => siteGroup c.dst = k).length
    + 16 * (g.spreads.filter fun e => siteGroup e.site = k).length
    + ((g.mems.filter fun m => siteGroup m.site = k).map (·.len)).sum

/-- Extension entries of a QX (R375). -/
def qxEntries (qx : Nat) : Nat := match qx with | 0 => 0 | 1 => 8 | 2 => 24 | _ => 56

/-- Extension entries that a configuration takes in group `k`. -/
def extCharge (g : HConfig) (k : Nat) : Nat :=
  ((g.circuits.filter fun c => siteGroup c.dst = k).map fun c => qxEntries c.qx).sum

/-- The configurations held in the store. -/
def storedConfigs (s : State) : List HConfig := s.grid.slots.filterMap fun x => x.2.bind (·.cfg)

/-- Bytes free in group `k` of the store, of 6 MB (0x2800:05). -/
def storeFree (s : State) (k : Nat) : Nat := 6291456 - ((storedConfigs s).map fun g => storeCharge g k).sum

/-- Extension entries free in group `k`, of 2,048 (0x2800:06). -/
def extFree (s : State) (k : Nat) : Nat := 2048 - ((storedConfigs s).map fun g => extCharge g k).sum

/-- Whether a configuration fits the store and the extension pools. -/
def configFits (s : State) (g : HConfig) : Bool :=
  (List.range 8).all fun k => storeCharge g k ≤ storeFree s k && extCharge g k ≤ extFree s k

/-- Sites of units, and links, that a configuration takes (R384). -/
def configClaims (g : HConfig) : List Nat × List (Nat × Nat) := (g.units.map (·.1), g.circuits.flatMap circuitLinks)

/-- Whether another context's Active or Draining configuration uses a site or link of this one (R384, R385). -/
def configClash (s : State) (c : Nat) (g : HConfig) : Bool :=
  let a := configClaims g
  (heldConfigs s).any fun x =>
    x.1 ≠ c && (let b := configClaims x.2; (a.1.any fun k => b.1.contains k) || (a.2.any fun l => b.2.contains l))

end Sys2Proof.Machine
end

