-- ==== Sys2Proof/Machine/HearthProof.lean ====
section
/-! DEFINITION. The queue-sizing proof (R379–R381): the firings per message of each unit, the initiation interval, and the
exact simulation of the self-timed firing at corner times. Times are in 0.1 ns. -/

namespace Sys2Proof.Machine

/-! ### Actors

An actor is a unit, or one side of an LDST unit: it is named by 2 · site + side, side 1 the write side. -/

/-- ITMAX of the ring that a STEER or MERGE stands in (R379): a MERGE whose A is fed only from O0 of a STEER, the C inputs
of both fed from one output. -/
def ringOf (g : HConfig) (site : Nat) : Option Nat :=
  let merges := g.units.filter fun u => u.2.kind = 2 && u.2.op = 5
  merges.findSome? fun m =>
    match circuitTo g m.1 0, circuitTo g m.1 2 with
    | some a, some c =>
      match unitAt g a.src, circuitTo g a.src 2 with
      | some t, some d =>
        if t.kind = 2 && t.op = 4 && a.out = 0 && c.src = d.src && c.out = d.out && (site = m.1 || site = a.src)
        then some m.2.count else none
      | _, _ => none
    | _, _ => none

/-- How an actor fires: how many firings make its period, and for a firing of the period the inputs it needs, those it
consumes, and the output it writes. -/
structure Plan where
  period : Nat
  needs : Nat → List Nat
  pops : Nat → List Nat
  emit : Nat → Option Nat

/-- A firing that needs and consumes the same inputs and writes one output each time. -/
def steadyPlan (ins : List Nat) (out : Option Nat) : Plan :=
  { period := 1, needs := fun _ => ins, pops := fun _ => ins, emit := fun _ => out }

/-- The plan of an actor. Immediate inputs are left out. -/
def planOf (g : HConfig) (site side : Nat) (u : UnitEntry) : Plan :=
  let live (l : List Nat) := l.filter fun k => !isImm u k
  let p := u.count + 1
  match u.kind, u.op with
  | 1, 4 => { steadyPlan (live [0, 1]) none with period := p, emit := fun n => if n = p - 1 then some 0 else none }
  | 1, 5 => { steadyPlan (live [0]) none with period := p, emit := fun n => if n = p - 1 then some 0 else none }
  | 2, 4 =>
    let it := (ringOf g site).getD 0
    { steadyPlan (live [0, 2]) none with period := it + 1, emit := fun n => some (if n < it then 0 else 1) }
  | 2, 5 =>
    let it := (ringOf g site).getD 0
    let f (n : Nat) := live (if n = 0 then [2, 1] else [2, 0])
    { period := it + 1, needs := f, pops := f, emit := fun _ => some 0 }
  | 2, 12 => { steadyPlan (live [0]) (some 0) with period := p, pops := fun n => if n = p - 1 then live [0] else [] }
  | 2, 13 => { steadyPlan (live [0]) (some 0) with period := p, pops := fun n => if n = p - 1 then live [0] else [] }
  | 4, 1 => if side = 0 then steadyPlan (live [0]) (some 0) else steadyPlan (live [1, 2]) (some 1)
  | 4, 3 => { steadyPlan (live [0]) (some 0) with period := p, pops := fun n => if n = p - 1 then live [0] else [] }
  | 4, 4 =>
    let ends (n : Nat) : Bool := n % 32 = 31 || n = p - 1
    let f (n : Nat) := live (if ends n then [1, 2] else [2])
    { period := p, needs := f, pops := f, emit := fun n => if ends n then some 1 else none }
  | _, _ =>
    match opInputs u.kind u.op with
    | none => steadyPlan [] none
    | some (ins, outs) => steadyPlan (live ins) outs.head?

/-- Tokens that a period consumes from input `k`. -/
def popsPer (p : Plan) (k : Nat) : Nat := ((List.range p.period).filter fun n => (p.pops n).contains k).length

/-- Tokens that a period writes to output `o`. -/
def emitsPer (p : Plan) (o : Nat) : Nat := ((List.range p.period).filter fun n => p.emit n = some o).length

/-- Sides of a unit that take part: both of an LDST unit where they are connected. -/
def sidesOf (g : HConfig) (site : Nat) (u : UnitEntry) : List Nat :=
  if u.kind = 4 && u.op = 1 then [0, 1].filter fun d => (if d = 0 then [0] else [1, 2]).any fun k => circuitsInto g site k = 1
  else [0]

/-- The actors of a program. -/
def actorsOf (g : HConfig) (sites : List Nat) : List Nat :=
  g.units.flatMap fun u => if sites.contains u.1 then (sidesOf g u.1 u.2).map (2 * u.1 + ·) else []

/-- The plan of a named actor. -/
def actorPlan (g : HConfig) (a : Nat) : Plan :=
  match unitAt g (a / 2) with
  | none => steadyPlan [] none
  | some u => planOf g (a / 2) (a % 2) u

/-- The actor that writes an output of a site. -/
def writerOf (g : HConfig) (site out : Nat) : Nat :=
  match unitAt g site with
  | some u => if u.kind = 4 && u.op = 1 then 2 * site + out else 2 * site
  | none => 2 * site

/-- The actor that consumes what a circuit brings. -/
def readerOf (g : HConfig) (c : Circuit) : Nat :=
  match unitAt g c.dst with
  | some u => if u.kind = 4 && u.op = 1 && c.inp ≠ 0 then 2 * c.dst + 1 else 2 * c.dst
  | none => 2 * c.dst

/-! ### Firings per message (R379, R381) -/

/-- Firings per message of an actor whose period takes `n` tokens from an input that receives `r` per message; none where
the period does not divide. -/
def firingsFrom (r n period : Nat) : Option Nat := if n = 0 then none else if r * period % n = 0 then some (r * period / n) else none

/-- Tokens per message on a circuit, once its writer's firings are known. -/
def circuitRate (g : HConfig) (t : Tab Nat) (c : Circuit) : Option Nat :=
  let a := writerOf g c.src c.out
  let f := tabGet 0 t a
  let p := actorPlan g a
  if f = 0 then none else if f * emitsPer p c.out % p.period = 0 then some (f * emitsPer p c.out / p.period) else none

/-- One round of deriving firings per message from inputs whose rate is known. -/
def rateRound (g : HConfig) (actors : List Nat) (t : Tab Nat) : Tab Nat :=
  actors.foldl (fun t a =>
    if tabGet 0 t a ≠ 0 then t
    else
      let p := actorPlan g a
      let ins := [0, 1, 2].filter fun k => popsPer p k ≠ 0
      let f := ins.findSome? fun k =>
        match circuitTo g (a / 2) k with
        | none => none
        | some c => (circuitRate g t c).bind fun r => firingsFrom r (popsPer p k) p.period
      match f with
      | some n => if n = 0 then t else tabPut t a n
      | none => t) t

/-- Firings per message of the actors: FIN one, FLI its TPM, the others from their inputs. -/
def firingRates (g : HConfig) (k : Nat) (actors : List Nat) : Tab Nat :=
  let start := actors.foldl (fun t a =>
    match unitAt g (a / 2) with
    | none => t
    | some u =>
      if u.kind = 5 && u.op = 1 then tabPut t a 1
      else if u.kind = 5 && u.op = 4 then
        match g.spreads.find? fun e => e.site = a / 2 && e.program = k with
        | some e => tabPut t a e.tpm
        | none => t
      else t) ([] : Tab Nat)
  Nat.repeat (rateRound g actors) actors.length start

/-- Every actor fires a fixed number of times per message, every circuit brings what its destination consumes, and COUT
takes one record per message. -/
def ratesOk (g : HConfig) (actors : List Nat) (cout : Nat) (t : Tab Nat) : Bool :=
  (actors.all fun a => tabGet 0 t a ≠ 0) && tabGet 0 t (2 * cout) = 1 &&
  g.circuits.all fun c =>
    let a := readerOf g c
    if actors.contains a then
      let p := actorPlan g a
      (match circuitRate g t c with
        | none => emitsPer (actorPlan g (writerOf g c.src c.out)) c.out = 0 && popsPer p c.inp = 0
        | some r => r * p.period = tabGet 0 t a * popsPer p c.inp)
    else true

/-! ### Corner times (R345, R373) -/

/-- Cycle of a unit. -/
def cycleOf (u : UnitEntry) : Nat :=
  match u.kind, u.op with
  | 1, _ => 8
  | 2, _ => 6
  | 3, 0x10 => 6
  | 3, _ => 12
  | 4, 2 => 24
  | 4, _ => 8
  | 5, 5 => 10
  | 5, 6 => 10
  | 5, 1 => 8
  | 5, 2 => 8
  | _, _ => 0

/-- Latency of a firing. R345 gives FLO and FLI none: they take none (DEDUCED, notes/assumptions/29). -/
def latencyOf (u : UnitEntry) (side : Nat) : Nat :=
  match u.kind, u.op with
  | 1, 4 => 12 + 5 * clog2 ((u.count + 1) * laneCount u.mode)
  | 1, 5 => 12 + 5 * clog2 ((u.count + 1) * laneCount u.mode)
  | 1, _ => 12
  | 2, _ => 6
  | 3, 0x10 => 10
  | 3, _ => 24
  | 4, 1 => if side = 0 then 16 else 12
  | 4, 2 => 24
  | 4, 3 => 16
  | 4, _ => 30
  | 5, 1 => 8
  | 5, 2 => 8
  | 5, 5 => 10
  | 5, 6 => 10
  | _, _ => 0

/-- Time per token of a circuit, and its travel time. -/
def circuitStep (c : Circuit) : Nat := 5 * (4 / c.width)
def circuitTravel (c : Circuit) : Nat := c.nhop * circuitStep c

/-- The initiation interval: the largest of the units' and the circuits' times per message (R381). -/
def initiation (g : HConfig) (actors : List Nat) (t : Tab Nat) : Nat :=
  let us := actors.map fun a => match unitAt g (a / 2) with | none => 0 | some u => tabGet 0 t a * cycleOf u
  let cs := g.circuits.map fun c =>
    if actors.contains (writerOf g c.src c.out) then ((circuitRate g t c).getD 0) * circuitStep c else 0
  (us ++ cs).foldl max 0

/-! ### The simulation (R380, R381) -/

/-- A simulated time with the crossing time on its critical path. -/
abbrev SimTime := Nat × Nat

/-- The later of two times. -/
def later (a b : SimTime) : SimTime := if a.1 < b.1 then b else a

/-- State of the simulation: firings made, the next time each actor may fire, the tokens of each queue with their arrival
times, the free entries of each queue with the times they came free, the next time each circuit takes a token, when FLO
units sent their tokens, and when COUT handed its records; each time with the crossing time that led to it. -/
structure Sim where
  fired : Tab Nat
  next : Tab SimTime
  queues : Tab (List SimTime)
  room : Tab (List SimTime)
  accept : Tab SimTime
  sent : Tab (List SimTime)
  done : List SimTime

/-- The simulation before the first message: initial tokens in queue C (R340). -/
def simStart (g : HConfig) : Sim :=
  let z : Sim := { fired := [], next := [], queues := [], room := [], accept := [], sent := [], done := [] }
  g.circuits.foldl (fun s c =>
    let n := if c.inp = 2 then (match unitAt g c.dst with | some u => u.initn | none => 0) else 0
    let key := qkey c.dst c.inp
    { s with queues := tabSet [] s.queues key (List.replicate n (0, 0)),
             room := tabSet [] s.room key (List.replicate (qxDepth c.qx - n) (0, 0)) }) z

/-- Messages that the simulation sends: as many as the intake holds (R369, R380). -/
def simMessages : Nat := 64

/-- Crossing time of a spread entry's HOP (R398). -/
def crossing (hop : Nat) : Nat := 400 + 12 * hop

/-- When a source actor has the token of its firing `n`: FIN from the delivery of message `n`, FLI from the far end; `none`
while it is not yet known, `some none` for an actor with inputs. -/
def sourceTime (g : HConfig) (ii : Nat) (s : Sim) (site : Nat) (u : UnitEntry) (n : Nat) : Option (Option SimTime) :=
  if u.kind = 5 && u.op = 1 then (if n < simMessages then some (some (n * ii, 0)) else none)
  else if u.kind = 5 && u.op = 4 then
    match g.spreads.find? fun e => e.site = site with
    | none => none
    | some e =>
      match g.spreads[e.rsrc]? with
      | none => none
      | some f =>
        match (tabGet [] s.sent f.site)[(n / e.tpm + 1) * f.tpm - 1]? with
        | none => none
        | some t =>
          let x := crossing f.hop + crossing e.hop
          some (some (t.1 + x + e.rtime, t.2 + x))
  else some none

/-- Heads of the queues that a firing needs. -/
def simHeads (s : Sim) (site : Nat) (ks : List Nat) : Option (List SimTime) :=
  match ks with
  | [] => some []
  | k :: ks =>
    match (tabGet [] s.queues (qkey site k)).head?, simHeads s site ks with
    | some t, some l => some (t :: l)
    | _, _ => none

/-- Free entries that a firing takes. -/
def simRooms (s : Sim) (cs : List Circuit) : Option (List SimTime) :=
  match cs with
  | [] => some []
  | c :: cs =>
    match (tabGet [] s.room (qkey c.dst c.inp)).head?, simRooms s cs with
    | some t, some l => some (t :: l)
    | _, _ => none

/-- The outputs of an actor's next firing as circuits. -/
def simOutputs (g : HConfig) (site : Nat) (out : Option Nat) : List Circuit :=
  match out with
  | none => []
  | some o => circuitsFrom g site o

/-- A token enters a circuit: it is taken when the circuit has a slot for it, and arrives after the hops. -/
def simSend (t : SimTime) (s : Sim) (c : Circuit) : Sim :=
  let key := qkey c.dst c.inp
  let a := later t (tabGet (0, 0) s.accept key)
  { s with accept := tabSet (0, 0) s.accept key (a.1 + circuitStep c, a.2),
           room := tabSet [] s.room key (tabGet [] s.room key).tail,
           queues := tabSet [] s.queues key (tabGet [] s.queues key ++ [(a.1 + circuitTravel c, a.2)]) }

/-- A token leaves a queue, whose entry is free from then. -/
def simTake (site : Nat) (t : SimTime) (s : Sim) (k : Nat) : Sim :=
  let key := qkey site k
  { s with queues := tabSet [] s.queues key (tabGet [] s.queues key).tail,
           room := tabSet [] s.room key (tabGet [] s.room key ++ [t]) }

/-- One firing of an actor, if its tokens and room are known. -/
def simFire (g : HConfig) (ii : Nat) (s : Sim) (a : Nat) : Option Sim :=
  let site := a / 2
  match unitAt g site with
  | none => none
  | some u =>
    let n := tabGet 0 s.fired a
    let p := planOf g site (a % 2) u
    let k := n % p.period
    let outs := simOutputs g site (p.emit k)
    match sourceTime g ii s site u n, simHeads s site (p.needs k), simRooms s outs with
    | some src, some heads, some rooms =>
      let t := (heads ++ rooms ++ (match src with | some x => [x] | none => [])).foldl later (tabGet (0, 0) s.next a)
      let s := { s with fired := tabSet 0 s.fired a (n + 1), next := tabSet (0, 0) s.next a (t.1 + cycleOf u, t.2) }
      let s := (p.pops k).foldl (simTake site t) s
      let s := outs.foldl (simSend (t.1 + latencyOf u (a % 2), t.2)) s
      some (if u.kind = 5 && u.op = 2 then { s with done := s.done ++ [(t.1 + latencyOf u 0, t.2)] }
        else if u.kind = 5 && u.op = 3 then { s with sent := tabSet [] s.sent site (tabGet [] s.sent site ++ [t]) }
        else s)
    | _, _, _ => none

/-- Fires every actor that can, once each. -/
def simRound (g : HConfig) (ii : Nat) (actors : List Nat) (s : Sim) : Sim × Bool :=
  actors.foldl (fun x a => match simFire g ii x.1 a with | none => x | some s => (s, true)) (s, false)

/-- Runs the simulation until nothing more fires. -/
def simRun (fuel : Nat) (g : HConfig) (ii : Nat) (actors : List Nat) (s : Sim) : Sim :=
  match fuel with
  | 0 => s
  | n + 1 =>
    let r := simRound g ii actors s
    if r.2 then simRun n g ii actors r.1 else r.1

/-- Whether the unit that a circuit feeds lacks a token on another input that its next firing consumes. -/
def simLacks (g : HConfig) (s : Sim) (c : Circuit) : Bool :=
  let a := readerOf g c
  let p := actorPlan g a
  (p.needs (tabGet 0 s.fired a % p.period)).any fun k => k ≠ c.inp && (tabGet [] s.queues (qkey c.dst k)).isEmpty

/-- The queue that blocks a stalled simulation (R380, R392): full, its producer's tokens all there, its own unit without a
token on another input; the first by site and input. -/
def simBlocked (g : HConfig) (ii : Nat) (actors : List Nat) (s : Sim) : Option Nat :=
  let keys := actors.flatMap fun a =>
    match unitAt g (a / 2) with
    | none => []
    | some u =>
      let n := tabGet 0 s.fired a
      let p := planOf g (a / 2) (a % 2) u
      let k := n % p.period
      match sourceTime g ii s (a / 2) u n, simHeads s (a / 2) (p.needs k) with
      | some _, some _ => (simOutputs g (a / 2) (p.emit k)).filterMap fun c =>
          if (tabGet [] s.room (qkey c.dst c.inp)).isEmpty && simLacks g s c then some (qkey c.dst c.inp) else none
      | _, _ => []
  match keys with
  | [] => none
  | k :: ks => some (ks.foldl min k)

/-- Raises the QX of the circuit into a queue; none past QX 3. -/
def raiseQx (g : HConfig) (key : Nat) : Option HConfig :=
  if g.circuits.any fun c => qkey c.dst c.inp = key && c.qx = 3 then none
  else some { g with circuits := g.circuits.map fun c => if qkey c.dst c.inp = key then { c with qx := c.qx + 1 } else c }

/-- The proof of one program: simulated, its blocking queues raised one step at a time until it runs through (R380). -/
def proveQueues (n : Nat) (g : HConfig) (ii : Nat) (actors : List Nat) (fuel : Nat) : Option (HConfig × Sim) :=
  let s := simRun fuel g ii actors (simStart g)
  if simMessages ≤ s.done.length then some (g, s)
  else match n with
    | 0 => none
    | n + 1 =>
      match simBlocked g ii actors s with
      | none => none
      | some k =>
        match raiseQx g k with
        | none => none
        | some g => proveQueues n g ii actors fuel

/-- The time of the critical path, with the crossing time on it: the longest from a message's delivery, II after the one
before it, until COUT hands its record (R381). -/
def critical (ii : Nat) (done : List SimTime) : SimTime :=
  (done.zipIdx.map fun x => (x.1.1 - x.2 * ii, x.1.2)).foldl later (0, 0)

/-- Units that a bounded program may not hold (R379). -/
def boundUnitsOk (g : HConfig) (sites : List Nat) : Bool :=
  g.units.all fun u =>
    !sites.contains u.1 ||
    !((u.2.kind = 2 && u.2.op = 3) || (u.2.kind = 5 && u.2.op = 5)
      || (u.2.kind = 2 && (u.2.op = 4 || u.2.op = 5) && (ringOf g u.1).isNone)
      || (u.2.kind = 2 && u.2.op = 5 && u.2.count = 0xFFFF))

/-- The figures of a program without BOUND: class U, not simulated (R382). -/
def unboundFigure (valid : Bool) : HFigure := { pcrit := 0, ii := 0, xsum := 0, klass := if valid then 4 else 0 }

/-- Proves one program: the configuration with the queue depths it needs, and its figures (R379–R381). -/
def proveProgram (g : HConfig) (k : Nat) : Option (HConfig × HFigure) :=
  match g.progs[k]? with
  | none => none
  | some p =>
    if !p.valid || !p.bound then some (g, unboundFigure p.valid)
    else
      let sites := programSites g k
      let actors := actorsOf g sites
      let t := firingRates g k actors
      if !boundUnitsOk g sites || !ratesOk g actors p.cout t then none
      else
        let ii := initiation g actors t
        let fuel := simMessages * (actors.map fun a => tabGet 0 t a).sum + 1
        match proveQueues (3 * g.circuits.length) g ii actors fuel with
        | none => none
        | some (g, s) =>
          let w := critical ii s.done
          some (g, { pcrit := w.1 - w.2, ii := ii, xsum := w.2, klass := if (programSpreads g k).isEmpty then 2 else 3 })

/-- Proves the programs of a configuration in order: the configuration as it is stored, with its figures. -/
def proveConfig (n k : Nat) (g : HConfig) : Option HConfig :=
  match n with
  | 0 => some g
  | n + 1 =>
    match proveProgram g k with
    | none => none
    | some (g, f) => proveConfig n (k + 1) { g with figures := g.figures ++ [f] }

end Sys2Proof.Machine
end

