-- ==== Sys2Proof/Machine/HearthStore.lean ====
section
/-! DEFINITION. The configuration store (12): slots, what a configuration's units hold when it becomes Active, and the two
phases of a swap (R383, R387–R389, R396). -/

namespace Sys2Proof.Machine

/-- Slot `k` of the store. -/
def hslot (s : State) (k : Nat) : Option HSlot := tabGet none s.grid.slots k

/-- Writes slot `k` of the store; none for Empty. -/
def setHslot (s : State) (k : Nat) (x : Option HSlot) : State :=
  { s with grid := { s.grid with slots := tabSet none s.grid.slots k x } }

/-- Puts slot `k` into a state. -/
def setHstate (s : State) (k : Nat) (st : HState) : State :=
  match hslot s k with
  | none => s
  | some h => setHslot s k (some { h with state := st })

/-- The initial tokens of a configuration (R340). -/
def initialTokens (g : HConfig) (tag : BitVec 14) : Tab (List Token) :=
  g.units.foldl (fun t u =>
    tabSet [] t (qkey u.1 2) (List.replicate u.2.initn { tag := tag, p := bit u.2.flags.toNat 5, data := 0 })) []

/-- The MEM and SFU bytes of a configuration: what its descriptors give, zero elsewhere (R366, R376). -/
def initialMem (g : HConfig) : List Host.Cell :=
  g.mems.foldl (fun m d => memWriteN m (16384 * d.site + d.dst) (slice g.data d.off d.len)) []

/-- A configuration as it stands when it becomes Active (R387, R394). -/
def freshRun (s : State) (c : Nat) (g : HConfig) : HRun :=
  { HRun.reset with queues := initialTokens g (ctxTag s c), mem := initialMem g }

/-- Makes the configuration in slot `k` its context's running one. -/
def activate (s : State) (c k : Nat) : State :=
  match (hslot s k).bind (·.cfg) with
  | none => s
  | some g => setRun (setHstate s k .active) c (freshRun s c g)

/-- The swap of a context. -/
def swapOf (s : State) (c : Nat) : Option Swap := (ctxAt s c).run.swap

/-- Writes the swap of a context. -/
def setSwap (s : State) (c : Nat) (w : Option Swap) : State := setRun s c { (ctxAt s c).run with swap := w }

/-- Tokens that a running configuration holds, those in FLI buffers among them. -/
def allTokens (r : HRun) : Nat := tokenCount r + (r.fli.map fun x => x.2.length).sum

/-- Admitted messages of a context's Hearth programs whose record is still to come. -/
def openRecords (r : HRun) : List Nat := r.open_.flatMap (·.2)

/-- The record of a message is discarded (R388): a no-send, counted in Records cut, with a sample (R501). -/
def cutRecord (s : State) (c m : Nat) : State :=
  let s := match msgAt s m with
    | none => s
    | some x => sampleNow s c 4 3 x.layout (x.instr.getD 0) 0 []
  noSend s m (cb c 7) 9

/-- Whether a message is one of a context's admitted messages for the configuration that runs, not yet out of the feature
stage. -/
def onItsWay (c : Nat) (m : Msg) : Bool :=
  m.ctx = c && m.kind = .h && m.fate = .admitted && !m.accessed && m.side = .running

/-- The messages of a context on their way to the configuration that leaves get no record (R388). -/
def cutOnItsWay (s : State) (c : Nat) : State :=
  s.work.msgs.foldl (fun s x =>
    match msgAt s x.1 with
    | none => s
    | some m => if onItsWay c m then cutRecord (setMsg s x.1 { m with side := .cut }) c x.1 else s) s

/-- The tokens and records of the old configuration are discarded and counted, and its slot becomes Stored (R387, R388). -/
def discardOld (s : State) (c : Nat) : State :=
  let r := (ctxAt s c).run
  let s := bumpBy 64 s (cb c 7) 8 (allTokens r)
  let s := (openRecords r).foldl (fun s m => cutRecord s c m) s
  let s := match firingConfig s c with | none => s | some (k, _) => setHstate s k .stored
  cutOnItsWay (setRun s c { HRun.reset with swap := r.swap, waiting := r.waiting }) c

/-- Ends the drain phase of a swap: the switch phase begins (R387). -/
def beginSwitch (s : State) (c : Nat) (w : Swap) : State :=
  setSwap (discardOld s c) c (some { w with switching := true })

/-- Starts a swap to slot `to` (none: to nothing, R396): the entry is booked to the swap's latest end (R386). -/
def startSwap (s : State) (c : Nat) (dest : Option Nat) (drain : Bool) : State :=
  let t := admNow s + ns 500 + (if drain then ns (100 * (val s (cb c 7) 7 : Nat)) else 0)
  let l := s.work.ledger
  let s := { s with work := { s.work with ledger := { l with hearth := tabSet 0 l.hearth c (max t (tabGet 0 l.hearth c)) } } }
  let s := put s (cb c 7) 6 1
  let w : Swap := { dest := dest, drain := drain, switching := false, timedOut := false }
  match configIn s c .active with
  | none => setSwap s c (some { w with switching := true })
  | some (k, _) =>
    if drain then setSwap (setHstate s k .draining) c (some w) else beginSwitch (setSwap s c (some w)) c w

/-- The messages admitted for the configuration that a swap brings in are now those of the one that runs. -/
def settleSides (s : State) (c : Nat) : State :=
  s.work.msgs.foldl (fun s x =>
    match msgAt s x.1 with
    | none => s
    | some m => if m.ctx = c && m.side = .incoming then setMsg s x.1 { m with side := .running } else s) s

/-- What a swap that ends with its switch leaves in its status and count (R388). -/
def noteSwap (s : State) (c : Nat) (w : Swap) : State :=
  bump32 (put s (cb c 7) 6 (if w.timedOut then 4 else if w.drain then 2 else 3)) (cb c 7) 0x13

/-- Ends a swap with its switch (R387): the messages that waited for the new configuration enter it (R386). -/
def endSwap (s : State) (c : Nat) (w : Swap) : State :=
  let waiting := (ctxAt s c).run.waiting
  let s := setRun s c HRun.reset
  let s := match w.dest with | none => s | some k => activate s c k
  waiting.foldl enterConfig (settleSides (noteSwap s c w) c)

/-- The Hearth of a context that is torn down is emptied (R485), and a swap in progress ends at once (R389): with its switch
if that was reached, otherwise with the old configuration. The configuration's contents follow with the rewrite. -/
def purgeHearth (s : State) (c : Nat) : State :=
  let w := swapOf s c
  let s := settleSides (setRun s c HRun.reset) c
  match w with
  | none => s
  | some w =>
    if w.switching then noteSwap (match w.dest with | none => s | some k => setHstate s k .active) c w
    else match configIn s c .draining with
      | none => s
      | some (k, _) => put (setHstate s k .active) (cb c 7) 6 3

/-- Recovery of a context's Hearth (R389): the Active configuration is rewritten with fresh MEM contents and initial
tokens. -/
def recoverHearth (s : State) (c : Nat) : State :=
  match configIn s c .active with
  | none => setRun s c HRun.reset
  | some (k, _) => activate s c k

/-- Unloading empties every slot of the context (R389). -/
def unloadHearth (s : State) (c : Nat) : State :=
  let slots := s.grid.slots.filter fun x => match x.2 with | some h => h.owner ≠ c | none => false
  setRun { s with grid := { s.grid with slots := slots } } c HRun.reset

/-- Whether slot `k` holds a configuration that a test names. -/
def slotIs (s : State) (p : HConfig → Bool) (k : Nat) : Bool := ((hslot s k).bind (·.cfg)).any p

/-- The configurations of a context that a test names can run no more (R396, R458): a running one leaves Active for Stored by
a cut swap to nothing, or, in a context that is being torn down, its slot is Stored and it holds no token. A swap in progress
cuts its drain short, and brings in nothing in the place of a named one. -/
def dropActive (s : State) (c : Nat) (p : HConfig → Bool) : State :=
  match swapOf s c with
  | some w =>
    let w := if (w.dest.any (slotIs s p)) then { w with dest := none } else w
    if !w.switching && (configIn s c .draining).any (fun x => p x.2) then beginSwitch s c { w with drain := false }
    else setSwap s c (some w)
  | none =>
    match configIn s c .active with
    | none => s
    | some (k, g) =>
      if !p g then s
      else if isLoaded s c then startSwap s c none false
      else setRun (setHstate s k .stored) c HRun.reset

/-- Whether a configuration has a site or route hop in logical column `col`. -/
def usesColumn (g : HConfig) (col : Nat) : Bool := (configSites g).any fun x => siteCol x = col

/-- Logical column `col` becomes unusable (R396): every running configuration that uses it leaves Active. -/
def loseColumn (s : State) (col : Nat) : State :=
  if bit (val s 0x2800 9) col then s
  else
    let s := put s 0x2800 9 (val s 0x2800 9 ||| 2 ^ col)
    allCtxs.foldl (fun s c => dropActive s c fun g => usesColumn g col) s

/-- The lowest Empty slot. -/
def emptyHslot (s : State) : Option Nat := (List.range 16).find? fun k => (hslot s k).isNone

/-- Whether a configuration's column groups are all On (R385). -/
def groupsOn (s : State) (g : HConfig) : Bool := (configGroups g).all fun k => domIsOn s (groupDomain k)

/-- Whether any H layout of a context bounded by configuration `g` lies above its class limit (R46, R384). -/
def hearthAboveLimit (s : State) (c : Nat) (im : Image) (g : HConfig) : Bool :=
  im.layouts.any fun x =>
    x.2.valid && x.2.pkind = 3 &&
    (match hearthProg s c im x.2 g x.2.pindex with
      | none => false
      | some p => match classI p.klass with | none => false | some i => decide (i < p.work))

/-- Whether an FLI of a configuration shares its channel, circuit and EPOCH with the context's Active one (R399). -/
def epochShared (s : State) (c : Nat) (g : HConfig) : Bool :=
  match configIn s c .active with
  | none => false
  | some (_, a) =>
    g.spreads.any fun e => e.cred = 0 && a.spreads.any fun f =>
      f.cred = 0 && siteChannel f.site = siteChannel e.site && f.circ = e.circ && f.epoch = e.epoch

end Sys2Proof.Machine
end

