-- ==== Sys2Proof/Machine/OpalOps.lean ====
section
/-! DEFINITION. The Opal model (09): its image and tensors (R275–R278), and what one step computes (R279–R282). -/

namespace Sys2Proof.Machine

/-! ### The image (R275, R277, R278) -/

/-- The Opal part as far as it stands alone; `some none` for an image without a model. -/
def readOpal (bs : Bytes) : Option (Option OpalImage) :=
  let fl := (byteAt bs 1).toNat
  let h := bs.take 64
  let b (k : Nat) : Nat := (byteAt bs k).toNat
  let tb := leAt bs 20 4
  if bs.length < 128 || b 0 ≠ 1 then none
  else if fl = 0 then (if zeroAt h 1 63 && bs.length = 128 then some none else none)
  else if !bit fl 0 || 4 ≤ fl || bs.length ≠ 128 + tb || !zeroAt bs 14 2 || !zeroAt bs 24 40
      || 6 < b 2 || 3 < b 3 || 8 < b 4 || 16 < b 5 || 1024 < leAt bs 6 2 || 256 < leAt bs 8 2
      || !([2, 3, 4].contains (b 10 % 16)) || !([2, 4].contains (b 10 / 16)) || 4 < b 12 || b 13 = 0 || 16 ≤ b 13
      || (b 4 ≠ 0 && 8 * b 4 < 2 ^ b 3) || !finite32 (leAt bs 16 4) || 2 ^ 31 ≤ leAt bs 16 4 || leAt bs 16 4 = 0 then none
  else some (some {
    gelu := bit fl 1, nlayer := b 2, hlog2 := b 3, dblk := b 4, nout := b 5, window := leAt bs 6 2, fres := leAt bs 8 2,
    wfmt := b 10 % 16, kvfmt := b 10 / 16, elmask := b 11, nscr := b 12, repl := b 13,
    eps := BitVec.ofNat 32 (leAt bs 16 4), header := h, feedback := slice bs 64 64, tensor := slice bs 128 tb })

/-- The weight format. -/
def weightFmt (m : OpalImage) : Short := (shortOf m.wfmt).getD .e8

/-- The key and value format. -/
def kvFmt (m : OpalImage) : Short := (shortOf m.kvfmt).getD .e8

/-- A tensor: binary32 or in the weight format, its rows and columns. -/
structure Tensor where
  weight : Bool
  rows : Nat
  cols : Nat
  deriving DecidableEq, Repr

/-- Bytes of one row of a tensor (R204, R277). -/
def tensorRow (f : Short) (t : Tensor) : Nat := if t.weight then t.cols / 32 * (1 + blockBytes f) else 4 * t.cols

/-- The event entries of a context: OUT code and NB of each (R237, R277). -/
def eventEntries (im : FeatImage) : List (Nat × Nat) :=
  im.events.map fun k => match im.feats[k]? with | none => (0, 0) | some f => (f.out, f.p1)

/-- The tensors in order (R277). -/
def tensorPlan (m : OpalImage) (es : List (Nat × Nat)) : List Tensor :=
  let d := modelD m
  let f32 (n : Nat) : Tensor := { weight := false, rows := 1, cols := n }
  let w (r c : Nat) : Tensor := { weight := true, rows := r, cols := c }
  [f32 d] ++ es.map (fun e => w (if e.1 = 0 then e.2 + 1 else 2) d)
    ++ (List.range m.nlayer).flatMap (fun _ => [f32 d, w d d, w d d, w d d, w d d, f32 d, w (4 * d) d, w d (4 * d)])
    ++ [f32 d, w m.nout d, f32 m.nout]

/-- Each tensor with its bytes. -/
def tensorCut (f : Short) (ts : List Tensor) (bs : Bytes) : List (Tensor × Bytes) :=
  match ts with
  | [] => []
  | t :: ts =>
    let n := t.rows * tensorRow f t
    (t, bs.take n) :: tensorCut f ts (bs.drop n)

/-- Whether a block of 32 elements holds neither a NaN code nor the scale code 0xFF (R278). -/
def blockOk (f : Short) (b : Bytes) : Bool :=
  byteAt b 0 ≠ 0xFF && (List.range 32).all fun i => decElem f (elemAt f (b.drop 1) i) ≠ .nan

/-- Whether a tensor's bytes hold what R278 allows. -/
def tensorOk (f : Short) (t : Tensor × Bytes) : Bool :=
  if t.1.weight then (chunks (t.2.length / (1 + blockBytes f)) (1 + blockBytes f) t.2).all (blockOk f)
  else (chunks (t.2.length / 4) 4 t.2).all fun b => finite32 (leNat b)

/-- The checks of an Opal image against the feature image: the size of its tensor part and every element (R278), and the
feedback source of each event entry (R296). -/
def opalTensorOk (m : OpalImage) (im : FeatImage) : Bool :=
  let f := weightFmt m
  let plan := tensorPlan m (eventEntries im)
  (m.feedback.take im.events.length).all (fun k => k.toNat < 16 || k = 0xFF)
    && m.tensor.length = (plan.map fun t => t.rows * tensorRow f t).sum && (tensorCut f plan m.tensor).all (tensorOk f)

/-! ### Vectors with flags -/

/-- A vector of binary32 values and the flags of the operations that made it. -/
abbrev Vec := List (BitVec 32) × Byte

/-- Elements by an operation on pairs. -/
def vecMap2 (op : BitVec 32 → BitVec 32 → BitVec 32 × Byte) (a b : List (BitVec 32)) : Vec :=
  let r := (a.zip b).map fun x => op x.1 x.2
  (r.map (·.1), r.foldl (fun f x => f ||| x.2) 0)

/-- Elements by an operation on each. -/
def vecMap (op : BitVec 32 → BitVec 32 × Byte) (a : List (BitVec 32)) : Vec :=
  let r := a.map op
  (r.map (·.1), r.foldl (fun f x => f ||| x.2) 0)

/-- mul of R215 on encodings. -/
def mulB (a b : BitVec 32) : BitVec 32 × Byte := mul32 (dec32 a) (dec32 b)

/-- dot of R217 on encodings. -/
def dotB (a b : List (BitVec 32)) : BitVec 32 × Byte := dotVal (a.map dec32) (b.map dec32)

/-- A binary32 row. -/
def f32Row (bs : Bytes) : List (BitVec 32) := (chunks (bs.length / 4) 4 bs).map fun b => BitVec.ofNat 32 (leNat b)

/-- A row of interleaved blocks, decoded (R202, R204). -/
def blockRow (f : Short) (bs : Bytes) : Vec :=
  let n := 1 + blockBytes f
  let r := (chunks (bs.length / n) n bs).flatMap fun b =>
    (List.range 32).map fun i => decBlock f (byteAt b 0).toNat (elemAt f (b.drop 1) i)
  (r.map (·.1), r.foldl (fun a x => a ||| x.2) 0)

/-- Row `i` of a weight tensor. -/
def tensorRowAt (f : Short) (t : Tensor × Bytes) (i : Nat) : Vec :=
  blockRow f (slice t.2 (i * tensorRow f t.1) (tensorRow f t.1))

/-- mv(W, u) (R279). -/
def mv (f : Short) (t : Tensor × Bytes) (u : List (BitVec 32)) : Vec :=
  let rows := (List.range t.1.rows).map fun i =>
    let w := tensorRowAt f t i
    let r := dotB w.1 u
    (r.1, w.2 ||| r.2)
  (rows.map (·.1), rows.foldl (fun a x => a ||| x.2) 0)

/-- c_d and c_h: 1 / n and 1 / √n rounded to binary32. -/
def recipConst (n : Nat) : BitVec 32 := (roundQuot false (2 ^ 80) n (-80)).1
def rsqrtConst (n : Nat) : BitVec 32 := (roundRoot (2 ^ 160) n (-80)).1

/-- rmsnorm (R279). -/
def rmsnorm (m : OpalImage) (x g : List (BitVec 32)) : Vec :=
  let q := dotB x x
  let p := mulB q.1 (recipConst (modelD m))
  let a := add32 p.1 m.eps
  let r := sfu .rsqrt a.1
  let y := vecMap (fun v => mulB v r.1) x
  let z := vecMap2 mulB y.1 g
  (z.1, q.2 ||| p.2 ||| a.2 ||| r.2 ||| y.2 ||| z.2)

/-- maxof (R279): NaN when any term is NaN, +0 when the largest terms are zeros. -/
def maxOf (l : List (BitVec 32)) : BitVec 32 :=
  if l.any fun v => dec32 v = .nan then nan32
  else
    let m := l.foldl (fun (a : Option (BitVec 32)) v =>
      match a with
      | none => some v
      | some w => if ltVal (dec32 w) (dec32 v) then some v else some w) none
    match m with
    | none => 0
    | some v => if eqVal (dec32 v) (.fin false 0 0) then 0 else v

/-! ### Rows of a cache (R283) -/

/-- Key or value elements decoded from their bytes and scale bytes (R204, split arrangement). -/
def splitRow (f : Short) (es ss : Bytes) : Vec :=
  let r := ss.zipIdx.flatMap fun s =>
    (List.range 32).map fun i => decBlock f s.1.toNat (elemAt f (slice es (32 * s.2) 32) i)
  (r.map (·.1), r.foldl (fun a x => a ||| x.2) 0)

/-- Encodes a key or value vector: element bytes, scale bytes, flags, flushed elements, and whether a NaN code stands in
it (R206, R208, R284). -/
def encodeRow (f : Short) (n : Nat) (xs : List (BitVec 32)) : Bytes × Bytes × Byte × Nat × Bool :=
  match n with
  | 0 => ([], [], 0, 0, false)
  | n + 1 =>
    let b := encBlock f (xs.take 32)
    let r := encodeRow f n (xs.drop 32)
    (elemBytes f b.elems ++ r.1, BitVec.ofNat 8 b.scale :: r.2.1, b.flags ||| r.2.2.1, b.flushed + r.2.2.2.1,
      (b.elems.any fun c => decElem f c = .nan) || r.2.2.2.2)

/-! ### The step (R279, R280) -/

/-- The contribution of event entry `j` (R280). -/
def contribution (f : Short) (t : Tensor × Bytes) (out : Nat) (e : BitVec 32 × Bool) : Vec :=
  if out = 0 then tensorRowAt f t (if e.2 then 0 else e.1.toNat)
  else
    let v := elemVal out e.1
    if e.2 then tensorRowAt f t 1
    else if v = .nan then ((tensorRowAt f t 1).1, (tensorRowAt f t 1).2 ||| fNV)
    else
      let c := tensorRowAt f t 0
      let r := vecMap (fun w => mul32 v (dec32 w)) c.1
      (r.1, c.2 ||| r.2)

/-- The embedding: the pairwise sum of the bias and the contributions, per element. -/
def embed (d : Nat) (bias : List (BitVec 32)) (cs : List Vec) : Vec :=
  let r := (List.range d).map fun i => pairwise (plainTerms (bias.getD i 0 :: cs.map fun c => c.1.getD i 0))
  (r.map (·.1), (cs.foldl (fun a c => a ||| c.2) 0) ||| r.foldl (fun a x => a ||| x.2) 0)

/-- Attention of one head over decoded rows. -/
def attend (dh h : Nat) (q : List (BitVec 32)) (ks vs : List (List (BitVec 32))) : Vec :=
  if ks.isEmpty then (List.replicate dh 0, 0)
  else
    let part (v : List (BitVec 32)) : List (BitVec 32) := (v.drop (h * dh)).take dh
    let ch := rsqrtConst dh
    let sc := ks.map fun k =>
      let r := dotB (part q) (part k)
      let p := mulB r.1 ch
      (p.1, r.2 ||| p.2)
    let mx := neg32 (maxOf (sc.map (·.1)))
    let ex := sc.map fun x =>
      let a := add32 x.1 mx
      let e := sfu .exp a.1
      (e.1, x.2 ||| a.2 ||| e.2)
    let z := pairwise ex
    let rz := sfu .recip z.1
    let es := ex.map (·.1)
    let out := (List.range dh).map fun i =>
      let r := dotB es (vs.map fun v => (part v).getD i 0)
      let p := mulB r.1 rz.1
      (p.1, r.2 ||| p.2)
    (out.map (·.1), z.2 ||| rz.2 ||| out.foldl (fun a x => a ||| x.2) 0)

/-- What a layer gives: the vector, the new row, and what its encodings report. -/
structure LayerOut where
  x : List (BitVec 32)
  row : KVRow
  flags : Byte
  flushed : Nat
  nan : Bool
  deriving DecidableEq, Repr

/-- One layer, on its eight tensors and the rows of its window. -/
def layerStep (m : OpalImage) (ts : List (Tensor × Bytes)) (x : List (BitVec 32)) (win : List KVRow) : LayerOut :=
  let none' : Tensor × Bytes := ({ weight := true, rows := 0, cols := 0 }, [])
  let t (i : Nat) : Tensor × Bytes := ts.getD i none'
  let f := weightFmt m
  let kf := kvFmt m
  let u := rmsnorm m x (f32Row (t 0).2)
  let q := mv f (t 1) u.1
  let k := mv f (t 2) u.1
  let v := mv f (t 3) u.1
  let rows := win.map fun r => (splitRow kf r.k r.ks, splitRow kf r.v r.vs)
  let dh := modelD m / 2 ^ m.hlog2
  let heads := (List.range (2 ^ m.hlog2)).map fun h => attend dh h q.1 (rows.map (·.1.1)) (rows.map (·.2.1))
  let o := mv f (t 4) (heads.flatMap (·.1))
  let x1 := vecMap2 add32 x o.1
  let u2 := rmsnorm m x1.1 (f32Row (t 5).2)
  let w1 := mv f (t 6) u2.1
  let a := vecMap (sfu (if m.gelu then .gelu else .silu)) w1.1
  let w2 := mv f (t 7) a.1
  let x2 := vecMap2 add32 x1.1 w2.1
  let ek := encodeRow kf m.dblk k.1
  let ev := encodeRow kf m.dblk v.1
  { x := x2.1, row := { k := ek.1, v := ev.1, ks := ek.2.1, vs := ev.2.1 },
    flags := u.2 ||| q.2 ||| k.2 ||| v.2 ||| (rows.foldl (fun a r => a ||| r.1.2 ||| r.2.2) 0)
      ||| (heads.foldl (fun a h => a ||| h.2) 0) ||| o.2 ||| x1.2 ||| u2.2 ||| w1.2 ||| a.2 ||| w2.2 ||| x2.2
      ||| ek.2.2.1 ||| ev.2.2.1,
    flushed := ek.2.2.2.1 + ev.2.2.2.1, nan := ek.2.2.2.2 || ev.2.2.2.2 }

/-- What a step computes: its 16 output values, its new rows by layer, and what it reports. -/
structure StepOut where
  vals : List (BitVec 16)
  rows : List KVRow
  nan : Bool
  flags : Byte
  flushed : Nat
  deriving DecidableEq, Repr

/-- The layers from number `l` on. -/
def layersStep (m : OpalImage) (win : List (List KVRow)) (ts : List (List (Tensor × Bytes))) (x : List (BitVec 32)) :
    List (BitVec 32) × StepOut :=
  match ts with
  | [] => (x, { vals := [], rows := [], nan := false, flags := 0, flushed := 0 })
  | t :: ts =>
    let o := layerStep m t x (win.head?.getD [])
    let r := layersStep m win.tail ts o.x
    (r.1, { r.2 with rows := o.row :: r.2.rows, nan := o.nan || r.2.nan, flags := o.flags ||| r.2.flags,
                     flushed := o.flushed + r.2.flushed })

/-- The tensors of each layer. -/
def layerTensors (n : Nat) (ts : List (Tensor × Bytes)) : List (List (Tensor × Bytes)) :=
  match n with
  | 0 => []
  | n + 1 => ts.take 8 :: layerTensors n (ts.drop 8)

/-- One step on an event vector and the windows of its layers (R279). With d = 0 the output is the bias (R278). -/
def opalStep (m : OpalImage) (es : List (Nat × Nat)) (event : List (BitVec 32 × Bool)) (win : List (List KVRow)) : StepOut :=
  let f := weightFmt m
  let d := modelD m
  let ts := tensorCut f (tensorPlan m es) m.tensor
  let none' : Tensor × Bytes := ({ weight := true, rows := 0, cols := 0 }, [])
  let tail := ts.drop (1 + es.length + 8 * m.nlayer)
  let bout := f32Row (tail.getD 2 none').2
  let cs := (es.zip event).zipIdx.map fun e => contribution f (ts.getD (1 + e.2) none') e.1.1.1 e.1.2
  let x := embed d (f32Row (ts.getD 0 none').2) cs
  let r := layersStep m win (layerTensors m.nlayer (ts.drop (1 + es.length))) x.1
  let y : Vec :=
    if d = 0 then (bout, 0)
    else
      let n := rmsnorm m r.1 (f32Row (tail.getD 0 none').2)
      let w := mv f (tail.getD 1 none') n.1
      let y := vecMap2 add32 w.1 bout
      (y.1, n.2 ||| w.2 ||| y.2)
  let h := y.1.map narrow
  { r.2 with
    vals := h.map (·.1) ++ List.replicate (16 - h.length) 0
    flags := x.2 ||| r.2.flags ||| y.2 ||| h.foldl (fun a v => a ||| v.2) 0 }

end Sys2Proof.Machine
end

