-- ==== Sys2Proof/Machine/OpalSteps.lean ====
section
/-! DEFINITION. Steps in flight (09, 10): the order of an instrument's events, the requests of a step on the remote window,
its window and result, and the ways a step or a rollout ends. -/

namespace Sys2Proof.Machine

/-! ### The order of events (R29, R294) -/

/-- Serial order of sequence numbers modulo 2^32. -/
def serialLess (a b : BitVec 32) : Bool := a != b && decide ((b - a).toNat < 2 ^ 31)

/-- Step `k`. -/
def stepAt (s : State) (k : Nat) : Option OStep := tabGet none s.store.steps k

/-- Writes step `k`; none when it has ended. -/
def setStep (s : State) (k : Nat) (x : Option OStep) : State :=
  { s with store := { s.store with steps := tabSet none s.store.steps k x } }

/-- The booked and running steps, by number. -/
def allSteps (s : State) : List (Nat × OStep) := s.store.steps.filterMap fun x => x.2.map fun y => (x.1, y)

/-- Skipped events of an instrument that wait for their sequence update. -/
def skipsOf (s : State) (i : Nat) : List (BitVec 32) := tabGet [] s.store.skips i

/-- The events of an instrument that have a number and have not reached the slot: not yet handed to Opal, booked or
running, or waiting for their sequence update. -/
def openEvents (s : State) (i : Nat) : List (BitVec 32) :=
  (s.work.msgs.filterMap fun x =>
    match x.2 with
    | some m => if m.instr = some i && !m.issued then m.seq else none
    | none => none)
    ++ ((allSteps s).filter fun x => x.2.instr = i).map (fun x => x.2.seq) ++ skipsOf s i

/-- Whether every event of the instrument before `q` has reached the slot (R294). -/
def isNext (s : State) (i : Nat) (q : BitVec 32) : Bool := (openEvents s i).all fun x => !serialLess x q

/-- An event is skipped: it waits for its sequence update. -/
def skipEvent (s : State) (i : Nat) (q : BitVec 32) : State :=
  { s with store := { s.store with skips := tabSet [] s.store.skips i (skipsOf s i ++ [q]) } }

/-! ### The remote window (R311, R316, R439, R444) -/

/-- The pieces of `n` bytes from window address `a`, none across a 256-byte stripe. -/
def stripes (fuel a n : Nat) : List (Nat × Nat) :=
  match fuel with
  | 0 => []
  | fuel + 1 =>
    if n = 0 then []
    else
      let k := min n (256 - a % 256)
      (a, k) :: stripes fuel (a + k) (n - k)

/-- Sends one request to a window address at the list position of its stripe (R445). Nothing new is sent to a region that is not
valid (R327). -/
def windowReq (s : State) (tag : BitVec 14) (region : BitVec 6) (a type rlen : Nat) (payload : Bytes) (why : Purpose) : State :=
  let v := regionAt s region.toNat
  if regionState v ≠ 0 then s
  else
    let n := regionNode v a
    let p := pkt type n.1 n.2.1 (some tag) (n.2.2 + 2 ^ 32 * rlen) payload
    sendAt s (a / 256) { bytes := pktBytes p, req := some (reqOf s p why) }

/-- Reads `n` bytes of the window; `why` names the purpose of the piece at an address. -/
def windowRead (s : State) (tag : BitVec 14) (region : BitVec 6) (a n : Nat) (why : Nat → Purpose) : State :=
  (stripes (n / 256 + 2) a n).foldl (fun s x => windowReq s tag region x.1 1 x.2 [] (why x.1)) s

/-- Writes bytes to the window; `why` names the purpose of the piece at an address. -/
def windowWrite (s : State) (tag : BitVec 14) (region : BitVec 6) (a : Nat) (bs : Bytes) (why : Nat → Purpose) : State :=
  (stripes (bs.length / 256 + 2) a bs.length).foldl (fun s x =>
    windowReq s tag region x.1 2 0 (slice bs (x.1 - a) x.2) (why x.1)) s

/-- The header of a cache as it stands in memory (R283). -/
def headerBytes (x : Cache) : Bytes := toLe 4 x.next.toNat ++ List.replicate 28 0 ++ toLe 160 (maskOf x.valid) ++ List.replicate 64 0

/-- The row of a position in layer `l`, with its address offset (R283). -/
def rowOffset (m : OpalImage) (l p : Nat) : Nat := 256 + (l * ringLen m + p) * rowBytes m

/-- The bytes of a row. -/
def rowData (r : KVRow) : Bytes := r.k ++ r.v ++ r.ks ++ r.vs

/-- Writes the header of an instrument's cache where it lies in the remote window; while its region is fenced the write waits for
the end of the fence (R327). -/
def writeHeader (s : State) (tag : BitVec 14) (i : Nat) : State :=
  let d := dirAt s i
  if d.pl ≠ 2 then s
  else if regionState (regionAt s d.region.toNat) = 1 then
    { s with store := { s.store with heldHeaders := if s.store.heldHeaders.contains i then s.store.heldHeaders else s.store.heldHeaders ++ [i] } }
  else windowWrite s tag d.region d.addr.toNat (headerBytes (cacheAt s i)) (.mantelHeader i)

/-- Mantel resets a cache: NEXT equal to the instrument's next sequence number, every VALID bit clear (R317, R318). -/
def resetHeader (s : State) (tag : BitVec 14) (i : Nat) : State := writeHeader (resetCache s i) tag i

/-- A remote write fails or reaches its lifetime (R317). -/
def remoteWriteFail (s : State) (i : Nat) (pos : Option Nat) (addr : Nat) : State :=
  match ownerOf s i with
  | none => s
  | some c =>
    let s := bump32 s (cb c 6) 0x0D
    let s := sootCtx s c 0x2701 (i + (if pos.isNone then 65536 else 0)) addr
    match pos with
    | none => resetHeader s (ctxTag s c) i
    | some p =>
      let x := cacheAt s i
      writeHeader (setCache s i { x with valid := x.valid.filter (· != p) }) (ctxTag s c) i

/-- Whether a read for step `k` is still outstanding or waits to be sent. -/
def readsOpen (s : State) (k : Nat) : Bool :=
  (openReqs s).any fun q => match q.purpose with | .mantelRead j _ _ => j = k | _ => false

/-- Whether Mantel serves an instrument's cache at a placement: a remote one while its region is valid (R327). -/
def regionServes (s : State) (i pl : Nat) : Bool := pl ≠ 2 || regionState (regionAt s (dirAt s i).region.toNat) = 0

/-! ### The window and result of a step (R284, R285) -/

/-- Positions of the window of a step in one layer: events in increasing order whose bit was set in the header read, without those
whose row of the layer is left out as uncorrectable. -/
def windowPositions (m : OpalImage) (q n : Nat) (valid bad : List Nat) : List Nat :=
  let lo := max 1 (max (q - m.window) (n - ringLen m))
  let hi := min (q - 1) (n - 1)
  ((List.range (hi + 1 - lo)).map fun k => (lo + k) % ringLen m).filter fun p => valid.contains p && !bad.contains p

/-- A row that nothing has written. -/
def noRow : KVRow := { k := [], v := [], ks := [], vs := [] }

/-- The positions of a layer among rows named by layer and position. -/
def layerBad (bad : List (Nat × Nat)) (l : Nat) : List Nat := (bad.filter fun b => b.1 = l).map (·.2)

/-- The positions that a running step reads in layer `l`. -/
def stepPositions (m : OpalImage) (x : OStep) (l : Nat) : List Nat :=
  windowPositions m x.seq.toNat x.next.toNat x.valid (layerBad x.bad l)

/-- The rows of each layer at the positions of its window. -/
def windowRows (m : OpalImage) (rows : Tab KVRow) (ps : Nat → List Nat) : List (List KVRow) :=
  (List.range m.nlayer).map fun l => (ps l).map fun p => tabGet noRow rows (l * ringLen m + p)

/-- Computes a running step from its header and window (R279). -/
def computeStep (s : State) (x : OStep) : OStep :=
  match x.weights, (ctxAt s x.ctx).image with
  | some m, some im =>
    let r := opalStep m (eventEntries im.feat) x.event (windowRows m x.window (stepPositions m x))
    { x with vals := r.vals, rows := r.rows, nanRow := r.nan, flags := r.flags, flushed := r.flushed }
  | _, _ => x

/-- Whether the cache has a ring at all: layers, and positions in it. -/
def hasRing (m : OpalImage) : Bool := m.nlayer ≠ 0 && ringLen m ≠ 0

/-- The intent of a step: the VALID bits of the positions of events n to q clear, and NEXT becomes q (R284). -/
def intentCache (m : OpalImage) (x : Cache) (q : BitVec 32) : Cache :=
  let n := (q - x.next).toNat
  let gone := if ringLen m ≤ n then List.range (ringLen m) else (List.range (n + 1)).map fun k => (x.next.toNat + k) % ringLen m
  { x with next := q, valid := x.valid.filter fun p => !gone.contains p }

/-- A position set in a sorted list of positions. -/
def setPos (l : List Nat) (p : Nat) : List Nat := l.filter (· < p) ++ [p] ++ l.filter (p < ·)

/-- The commit of a step: its rows stand at its position, the VALID bit is set unless a row holds a NaN code, and NEXT
becomes q + 1 (R284). -/
def commitCache (m : OpalImage) (x : Cache) (y : OStep) : Cache :=
  let p := y.seq.toNat % ringLen m
  { tag := y.tag, next := y.seq + 1, valid := if y.nanRow then x.valid.filter (· != p) else setPos x.valid p,
    rows := (y.rows.zipIdx).foldl (fun t r => tabSet noRow t (r.2 * ringLen m + p) r.1) x.rows }

/-! ### Rollouts (R295–R298) -/

/-- Scratch slot `k` of a context. -/
def rolloutAt (s : State) (c k : Nat) : Rollout := tabGet Rollout.reset (ctxAt s c).rollouts k

/-- Writes a scratch slot. -/
def setRollout (s : State) (c k : Nat) (r : Rollout) : State :=
  let x := ctxAt s c
  setCtx s c { x with rollouts := tabSet Rollout.reset x.rollouts k r }

/-- A rollout ends: its counter is incremented, when it names one (R298). -/
def endRollout (s : State) (c k : Nat) (st : RollState) : State :=
  let r := rolloutAt s c k
  let s := setRollout s c k { r with state := st, waits := none }
  if r.kctr = 0xFFFF then s else requestInc s r.kctr 1 (ctxTag s c)

/-- The running rollouts of a context. -/
def runningRollouts (s : State) (c : Nat) : List Nat :=
  ((ctxAt s c).rollouts.filter fun x => x.2.state = .running).map (·.1)

/-- Abandons the running rollouts of a context that a test names. -/
def abandonRollouts (s : State) (c : Nat) (p : Rollout → Bool) : State :=
  (runningRollouts s c).foldl (fun s k => if p (rolloutAt s c k) then endRollout s c k .abandoned else s) s

/-- What a fork that is booked now has to wait for (R290, R296): the steps of the instrument, and the messages whose own step is
admitted and has not been issued. -/
def forkBehind (s : State) (i : Nat) : List Nat × List Nat :=
  (((allSteps s).filter fun x => x.2.instr = i).map (·.1),
    s.work.msgs.filterMap fun x =>
      match x.2 with
      | some m => if m.instr = some i && m.kind = .s && openMsg m && !m.issued then some x.1 else none
      | none => none)

/-- Whether a fork of an instrument still waits for a step, or for the end of a migration's lock (R296, R325). -/
def forkWaits (s : State) (i : Nat) (w : List Nat × List Nat) : Bool :=
  (allSteps s).any (fun x => w.1.contains x.1 || (match x.2.own with | some m => w.2.contains m | none => false))
    || w.2.any (fun m => match msgAt s m with | some x => openMsg x && !x.issued | none => false)
    || (match migAt s i with | some g => g.phase ≠ .copying | none => false)

/-- Forks whose instrument has no earlier step left are taken: s_f = NEXT − 1, the VALID bits, and the slot's values as
they stand (R296). -/
def settleForks (s : State) (c i : Nat) : State :=
  (runningRollouts s c).foldl (fun s k =>
    let r := rolloutAt s c k
    match r.waits with
    | none => s
    | some w =>
      if r.instr ≠ i || forkWaits s i w then s
      else
        let x := cacheAt s i
        setRollout s c k { r with waits := none, sf := x.next - 1, valid := x.valid, first := (slotAt s i).vals }) s

/-- The lanes that may run rollout steps of a context (R298). -/
def rolloutLanes (s : State) (c : Nat) : List Nat :=
  (usableLanes s (replicaSet s c)).filter fun k => bit (val s 0x2600 2) k

/-! ### The end of a step without publication -/

/-- A step is discarded: its event is skipped, and a message that waits for it becomes a no-send decision; the event
counts in an object of the context (R302, R318, R322). -/
def discardStep (s : State) (k i sub : Nat) : State :=
  match stepAt s k with
  | none => s
  | some x =>
    let s := skipEvent (setStep s k none) x.instr x.seq
    let s := bump32 s i sub
    let s := match x.own with
      | some m => deliver s m
      | none => s
    let s := sampleNow (progress s x.ctx 3) x.ctx 3 3 0 x.instr x.seq.toNat []
    settleForks (settleEns s x.ctx) x.ctx x.instr

/-- An uncorrectable header line fails a step, and Mantel resets the header (R318). -/
def headerFault (s : State) (k : Nat) : State :=
  match stepAt s k with
  | none => s
  | some x => resetHeader (discardStep s k (cb x.ctx 5) 8) x.tag x.instr

/-- An uncorrectable row line leaves the row, one of its layer, out of the window of a running step (R302, R318). A row that
is not of its window was not read by it. -/
def rowFault (s : State) (k : Nat) (row : Nat × Nat) : State :=
  match stepAt s k with
  | none => s
  | some x =>
    match x.weights with
    | none => s
    | some m =>
      if !(stepPositions m x row.1).contains row.2 then s
      else
        let s := bump32 s (cb x.ctx 5) 8
        setStep s k (some (computeStep s { x with bad := x.bad ++ [row] }))

/-- A read for a step was answered with an error, or never: the line is reported as uncorrectable (R318). -/
def readFault (s : State) (k : Nat) (row : Option (Nat × Nat)) : State :=
  let s := bump s 0x2700 6
  match row with
  | none => headerFault s k
  | some p => rowFault s k p

/-! ### Banks and rows (R329–R331) -/

/-- A migration ends with its placement unchanged: the destination is free, LOCK and MIG clear. -/
def dropMigration (s : State) (i : Nat) : State :=
  setMig (setDir s i { dirAt s i with lock := false, mig := false }) i none

/-- Spare rows left in a bank (0x2700:04). -/
def sparesLeft (s : State) (b : Nat) : Nat := 128 - (s.store.retiredRows.filter fun x => x.1 = b).length

/-- A bank is retired (R330, R331): it leaves the usable banks, quotas shrink, migrations are abandoned, and local space
waits to be relaid. -/
def retireBank (s : State) (b : Nat) : State :=
  if !bit (val s 0x2700 1) b then s
  else
    let s := put s 0x2700 1 (val s 0x2700 1 - 2 ^ b)
    let s := put s 0x2700 2 (localCapacity s)
    let s := allCtxs.foldl (fun s c => put s (cb c 6) 1 (val s (cb c 6) 1 * ub s / 6 / 64 * 64)) s
    let s := s.store.migs.foldl (fun s x => if x.2.isSome then dropMigration s x.1 else s) s
    noteRetired { s with store := { s.store with relaying := true, relayBanks := s.store.relayBanks ++ [b] } } 7 b 1

/-- A bank row takes a spare, or the bank is retired where none is left (R329, R330). The lines that could not be read stay
uncorrectable until they are next written. -/
def retireRow (s : State) (bank row : Nat) (unread : List Nat) : State :=
  let s := spoilLines s unread
  if sparesLeft s bank = 0 then retireBank s bank
  else
    let s := { s with store := { s.store with retiredRows := s.store.retiredRows ++ [(bank, row)] } }
    let s := soot s 0x2702 none bank row
    noteRetired s 4 (8192 * bank + row) (128 - sparesLeft s bank)

/-- Uncorrectable local lines are counted, and count against their bank rows; a row that passes its threshold is retired
(R318, R329, R495). -/
def strikeLines (s : State) (lines : List Nat) : State :=
  lines.foldl (fun s line =>
    let s := bump s 0x2700 6
    match lineRow s line with
    | none => s
    | some (bank, row) =>
      let r := strike s 4 (8192 * bank + row)
      if r.1 then retireRow r.2 bank row [line] else r.2) s

/-- Whether a row, by layer and position, has bytes in line `n` of its cache (R283). -/
def rowTouches (m : OpalImage) (n : Nat) (row : Nat × Nat) : Bool :=
  rowOffset m row.1 row.2 < 64 * (n + 1) && 64 * n < rowOffset m row.1 row.2 + rowBytes m

/-- The uncorrectable lines of an instrument's local cache, from the start of the cache: those that its banks report, and those
that read so until they are next written (R318, R329). -/
def localBad (s : State) (i : Nat) (f : LineFaults) : List Nat :=
  let a := (dirAt s i).addr.toNat / 64
  (f.bad ++ (s.store.badLines.filter (a ≤ ·)).map (· - a)).eraseDups

/-- What the reads of the header and of some rows of a local cache report (R318): corrected lines are counted, uncorrectable ones
too, against their rows of the banks. With them, the uncorrectable lines that were read. An uncorrectable header ends the
reading. -/
def readLocal (s : State) (i : Nat) (m : OpalImage) (rows : List (Nat × Nat)) (f : LineFaults) : List Nat × State :=
  let bad := localBad s i f
  let head := bad.filter (· < 4)
  let hit := if head.isEmpty then bad.filter fun n => rows.any (rowTouches m n) else head
  let s := bumpBy 64 s 0x2700 5 f.corrected
  (hit, strikeLines s (hit.map ((dirAt s i).addr.toNat / 64 + ·)))

/-! ### Weight memory and lanes (R299–R303) -/

/-- The weight copies that a context holds in each group of its REPL: the current one, the shadow, and each old one that a running
step still uses (R299, R301). A copy is told from another by the switches before it, whatever its bytes. -/
def weightCopies (s : State) (c : Nat) : List OpalImage :=
  let x := ctxAt s c
  let old := (allSteps s).filterMap fun y =>
    if y.2.ctx = c && y.2.running && y.2.wver ≠ x.switches then y.2.weights.map ((y.2.wver, ·)) else none
  x.weights.toList ++ x.shadow.toList
    ++ ((old.map (·.1)).eraseDups.filterMap fun v => (old.find? fun y => y.1 = v).map (·.2))

/-- Bytes of weight memory in use in group `g`. -/
def groupUse (s : State) (g : Nat) : Nat :=
  (s.ctxs.map fun c => ((weightCopies s c.1).map fun m => if bit m.repl g then m.tensor.length else 0).sum).sum

/-- Bytes of weight memory that a context holds over all groups. -/
def ctxWeightUse (s : State) (c : Nat) : Nat :=
  ((weightCopies s c).map fun m => m.tensor.length * ((List.range 4).filter fun g => bit m.repl g).length).sum

/-- Whether a further copy of a model fits each of its groups and the context's 8 MB (R12, R299). -/
def weightsFit (s : State) (c : Nat) (m : OpalImage) : Bool :=
  let groups := (List.range 4).filter fun g => bit m.repl g
  groups.all (fun g => groupUse s g + m.tensor.length ≤ 8388608)
    && ctxWeightUse s c + m.tensor.length * groups.length ≤ 8388608

/-- A lane is retired (R298, R303): its running step is discarded as under R302, and it leaves Usable lanes. A rollout whose lane
it is, or that is left without a usable rollout lane, is Abandoned. -/
def retireLane (s : State) (k : Nat) : State :=
  if !bit (val s 0x2600 1) k then s
  else
    let s := put s 0x2600 1 (val s 0x2600 1 - 2 ^ k)
    let s := put s 0x2600 7 (val s 0x2600 7 ||| 2 ^ k)
    let s := ((allSteps s).filter fun x => x.2.running && x.2.lane = k).foldl (fun s x => discardStep s x.1 (cb x.2.ctx 5) 0x12) s
    let s := s.ctxs.foldl (fun s c =>
      let none_ := (rolloutLanes s c.1).isEmpty
      abandonRollouts s c.1 fun r => none_ || r.lane = some k) s
    noteRetired s 3 k ((List.range 16).filter fun j => bit (val s 0x2600 7) j).length

end Sys2Proof.Machine
end

