-- ==== Sys2Proof/Machine/DomainUse.lean ====
section
/-! DEFINITION. Which power domains a context uses (01, R23), when a domain is in use (18, R547), and the values of the
context slot object that follow from the rest of the state (R23). -/

namespace Sys2Proof.Machine

/-! ### Domain use (R23, R45, R459) -/

/-- The ports that a context's filters steer from (CB:0C). -/
def filterPorts (im : Image) : List Nat :=
  ((im.filters.filter fun f => bit (filterWord f.2.2 0) 31).map (·.1)).eraseDups

/-- The Flue domains of a context: those of remote caches, and those of its spread circuits. -/
def flueUse (s : State) (c : Nat) : List Nat :=
  (if (ctxDir s c).any fun x => x.2.pl = 2 then remoteDomains s else [])
    ++ ((heldConfigs s).filter fun g => g.1 = c).flatMap fun g => g.2.spreads.map fun e => chanDomain (siteChannel e.site)

/-- The ports that a context's templates send on. -/
def templatePorts (im : Image) : List Nat := (im.chim.templates.filter fun t => t.valid).map fun t => t.port

/-- The Garnet domains of a context's ensembles. -/
def garnetUse (s : State) (c : Nat) : List Nat :=
  (ctxAt s c).ens.flatMap fun x => if x.2.ens.isSome then ensDomains x.2 else []

/-- The column groups of a context's running configurations, as domains. -/
def hearthUse (s : State) (c : Nat) : List Nat :=
  (heldConfigs s).flatMap fun g => if g.1 = c then (configGroups g.2).map groupDomain else []

/-- The lane groups that a model names, as domains. -/
def laneUse (im : Image) : List Nat :=
  match im.opal with
  | none => []
  | some m => ((List.range 4).filter fun g => bit m.repl g).map (14 + ·)

/-- The domains that the image of a context uses (CB:0B). -/
def domainUse (s : State) (c : Nat) : List Nat :=
  match (ctxAt s c).image with
  | none => []
  | some im =>
    (filterPorts im ++ templatePorts im ++ [8, 9, 32] ++ garnetUse s c ++ laneUse im
      ++ (if bytesIn s c 1 = 0 then [] else (usableBanks s).map bankDomain)
      ++ flueUse s c ++ hearthUse s c).eraseDups

/-- Whether a domain is in use (R547). -/
def domInUse (s : State) (d : Nat) : Bool :=
  (allCtxs.any fun c => ctxState s c != .free && (domainUse s c).contains d)
    || ((heldConfigs s).any fun g => (configGroups g.2).any fun k => groupDomain k = d)
    || ((heldConfigs s).any fun g => g.2.spreads.any fun e => chanDomain (siteChannel e.site) = d)
    || ((mantelList s).any fun f => chanDomain f = d)
    || (18 ≤ d && d < 24 && !(allRuns s 1).isEmpty)
    || (d < 8 && val s (0x2100 + d) 1 != 0)

/-! ### The context slot object (R23) -/

/-- The value of CB:01–0E as it stands. -/
def slotObject (s : State) (c sub : Nat) : Nat :=
  match sub with
  | 4 => match (ctxAt s c).image with | none => 0 | some m => if ctxState s c = .free then 0 else m.id.toNat
  | 0xB => if ctxState s c = .free then 0 else maskOf (domainUse s c)
  | 0xC => match (ctxAt s c).image with | none => 0 | some m => maskOf (filterPorts m)
  | 0xD => highestClass s c
  | 0xE => (instruments s c).length
  | _ => val s (cb c 0) sub

/-- Bytes of the values CB:01–0E. -/
def slotSizes : List (Nat × Nat) :=
  [(1, 1), (2, 1), (3, 1), (4, 4), (5, 1), (6, 8), (7, 8), (8, 8), (9, 4), (10, 2), (11, 8), (12, 1), (13, 1), (14, 2)]

/-! ### Work held by an engine (R482) -/

/-- Items of context `c` that engine `e` holds: queued in it, in one of its stages, or parked in it. -/
def heldItems (s : State) (c e : Nat) : Nat :=
  let msgs (p : Msg → Bool) : Nat := (s.work.msgs.filter fun x => match x.2 with | some m => m.ctx = c && p m | none => false).length
  let r := (ctxAt s c).run
  match e with
  | 1 => msgs fun m => (m.fate = .waiting || (m.instr.isSome && !m.accessed))
  | 2 => msgs fun m => openMsg m && m.kind != .h && m.accessed && !m.awaitStep && m.record.isNone
  | 3 => ((allSteps s).filter fun x => x.2.ctx = c).length + (runningRollouts s c).length
      + msgs fun m => m.seq.isSome && !m.issued
  | 4 => allTokens r + r.parked.length + (openRecords r).length
  | 5 => (tabGet [] s.chim.intake c).length
      + (s.chim.replies.filter fun x => match x.2 with | some y => y.ctx = c && y.state ≠ .ended | none => false).length
  | _ => 0

end Sys2Proof.Machine
end

