-- ==== Sys2Proof/Machine/Dumps.lean ====
section
/-! DEFINITION. The Ash pit (16): dumps as R499 to R501 lay them out, and the slots they go to. -/

namespace Sys2Proof.Machine

/-- A section: ID, length, and its bytes padded to a multiple of 8 (R500). -/
def dumpSection (id : Nat) (bs : Bytes) : Bytes := toLe 2 id ++ [0, 0] ++ toLe 4 bs.length ++ padTo 8 bs

/-- A scratchpad sample (R501). -/
def sampleBytes (x : Sample) : Bytes :=
  toLe 4 x.n.toNat ++ [BitVec.ofNat 8 x.kind, BitVec.ofNat 8 (x.prog % 8)] ++ toLe 2 (x.instr % 16384) ++ toLe 8 x.ref.toNat
    ++ x.data.take 16

/-- The scratchpad of engine `e`: its 16 samples, oldest first; samples not yet written are zeros. -/
def scratchBytesOf (s : State) (c e : Nat) : Bytes :=
  let bs := (tabGet [] (ctxAt s c).scratch e).flatMap sampleBytes
  bs ++ List.replicate (512 - bs.length) 0

/-- A Soot log entry (R503). -/
def sootBytes (e : Soot) : Bytes :=
  toLe 8 e.e.toNat ++ toLe 4 e.seq.toNat ++ toLe 2 e.event.toNat
    ++ toLe 2 (match e.tag with | none => 0 | some t => t.toNat + 16384) ++ toLe 8 e.a.toNat ++ toLe 8 e.b.toNat

/-- The last 64 entries that pass a test, oldest first. -/
def lastEntries (s : State) (p : Soot → Bool) : Bytes := (((s.recov.soot.filter p).take 64).reverse).flatMap sootBytes

/-- A ledger booking (R500); the stage code is open. -/
def bookingBytes (k : Nat) (x : BitVec 32 × BitVec 32 × Nat) : Bytes :=
  toLe 2 (Config.ledgerStage k).toNat ++ toLe 4 x.1.toNat ++ toLe 4 x.2.1.toNat ++ toLe 2 x.2.2 ++ List.replicate 4 0

/-- The outstanding Flue requests of a context (R500): age in 10 ns, as far as 16 bits hold it. -/
def requestDump (s : State) (c : Nat) : Bytes :=
  s.flue.chans.flatMap fun f =>
    f.2.outstanding.flatMap fun r =>
      match r.2 with
      | none => []
      | some q =>
        match q.tag with
        | none => []
        | some t =>
          if tagCtx t ≠ c then []
          else
            let age := min 65535 ((elapsed s - q.sentAt) / ns 10).toNat
            [BitVec.ofNat 8 f.1, q.type] ++ toLe 2 (ridOf f.2 r.1).toNat ++ toLe 2 t.toNat ++ toLe 2 age ++ toLe 8 q.arg.toNat

/-- The sections of a context dump (R500). -/
def contextSections (s : State) (c : Nat) (t : Teardown) : List Bytes :=
  let engines := [1, 2, 3, 4, 5]
  [ dumpSection 1 (slotSizes.flatMap fun x => toLe x.2 (slotObject s c x.1)),
    dumpSection 2 (engines.flatMap fun e =>
      toLe 8 (val s (cb c 0x0C) (5 + e)) ++ toLe 4 (val s (cb c 0x0C) e) ++ toLe 4 (heldItems s c e)),
    dumpSection 3 (engines.flatMap (scratchBytesOf s c)),
    dumpSection 4 (t.bookings.zipIdx.flatMap fun x => bookingBytes (s.sys.fresh + x.2) x.1),
    dumpSection 5 (t.depths.flatMap fun x =>
      toLe 2 x.1 ++ [BitVec.ofNat 8 x.2.1, BitVec.ofNat 8 x.2.2.1, BitVec.ofNat 8 x.2.2.2, 0, 0, 0]),
    dumpSection 6 (requestDump s c),
    dumpSection 7 (lastEntries s fun e => e.tag.map tagCtx = some c) ]

/-- The sections of a block dump (R500). It names no context: its log entries are the block's last 64 (DEDUCED,
notes/assumptions/34). -/
def blockSections (s : State) : List Bytes :=
  [ dumpSection 7 (lastEntries s fun _ => true),
    dumpSection 8 (Config.stokerState s.sys.fresh),
    dumpSection 9 (((List.range 36).map fun d => BitVec.ofNat 8 (domCode (domAt s d)))
      ++ (List.range 96).flatMap fun g => toLe 2 (tabGet 0 s.power.gauges g)) ]

/-- A dump of at most `limit` bytes (R499, R500): the header with its CRC, and the sections, cut at the limit. -/
def dumpBytes (limit kind ctx genOld genNew cause e0 e1 lseq : Nat) (sections : List Bytes) : Bytes :=
  let all := sections.flatMap id
  let body := all.take (limit - 64)
  let cut := body.length < all.length
  let head := [1, BitVec.ofNat 8 (kind + (if cut then 4 else 0)), BitVec.ofNat 8 ctx, BitVec.ofNat 8 genOld, BitVec.ofNat 8 genNew, 0]
    ++ toLe 2 cause ++ toLe 8 e0 ++ toLe 8 e1 ++ toLe 4 lseq ++ toLe 2 sections.length ++ [0, 0] ++ toLe 4 (64 + body.length)
    ++ List.replicate 24 0
  head ++ toLe 4 (crc32c (head ++ body)) ++ body

/-- Slot `k` of the Ash pit: 0–47, or 48 for the block dump. -/
def ashAt (s : State) (k : Nat) : Dump := tabGet Dump.reset s.recov.ash k

/-- Writes a slot of the Ash pit. -/
def setAsh (s : State) (k : Nat) (x : Dump) : State :=
  { s with recov := { s.recov with ash := tabSet Dump.reset s.recov.ash k x } }

/-- Slots with an unreleased dump (0x2C30:04). -/
def ashHeld (s : State) : Nat := maskOf ((List.range 49).filter fun k => (ashAt s k).held)

/-- Writes the dump of a context that is being torn down to the oldest slot, and unfreezes its scratchpads (R484 step 5,
R499, R501). -/
def writeContextDump (s : State) (c : Nat) (t : Teardown) : State :=
  let now := baseE (baseAt s (logBase s))
  let bs := dumpBytes 65536 1 c t.genOld.toNat (ctxGen s c) t.cause.toNat t.t0 now t.logSeq.toNat (contextSections s c t)
  let s := { s with sys := { s.sys with fresh := s.sys.fresh + t.bookings.length } }
  let k := s.recov.nextDump
  let s := if (ashAt s k).held then soot (bump32 s 0x2C30 5) 0x2C06 none k 0 else s
  let s := setAsh { s with recov := { s.recov with nextDump := (k + 1) % 48 } } k { bytes := bs, held := true }
  let s := put s (cb c 0x0C) 0x0F k
  let x := ctxAt s c
  setCtx s c { x with frozen := false, td := x.td.map fun t => { t with dump := k } }

/-- Writes the block dump, unless the last one has not been released (R494, R499). -/
def writeBlockDump (s : State) : State :=
  if (ashAt s 48).held then soot (bump32 s 0x2C30 6) 0x2C06 none 48 1
  else
    let now := baseE (baseAt s (logBase s))
    let bs := dumpBytes 1048576 2 0xFF 0 0 0 now now 0 (blockSections s)
    setAsh (nextFree s).2 48 { bytes := bs, held := true }

/-- The rules of 0x2C30:03 (R512): a slot that holds no dump is left as it is. -/
def writeDumpRelease (q : Requester) (s : State) : Ans :=
  let k := selected s q 0x2C30 1
  .ok (setAsh s k { ashAt s k with held := false })

/-- DUMP_RELEASE (R499, R512). -/
def execDumpRelease (q : Requester) (value : BitVec 8) (s : State) : Host.Outcome State Fault Refusal :=
  .next (request s q 0x2C30 3 [value] (writeDumpRelease q))

end Sys2Proof.Machine
end

