-- ==== Sys2Proof/Machine/Garnet.lean ====
section
/-! DEFINITION. Garnet (08): the walk of a tree, the reduction of a pass, the decision stage, and the changes of ensembles
while a context runs. -/

namespace Sys2Proof.Machine

/-! ### Nodes and trees (R248–R250) -/

/-- Whether a sample goes right at a node, by the first row of R249 that applies. -/
def goesRight (feats : List FeatEntry) (v : List (BitVec 32 × Bool)) (w : BitVec 32) : Bool :=
  let k := nodeFeat w
  let n := w.toNat
  let mdir := bit n 27
  match feats[k]?, v[k]? with
  | some f, some (x, missing) =>
    if missing then mdir
    else if bit n 26 then
      match elemVal f.out x with
      | .nan => mdir
      | y => !ltVal y (dec16 (BitVec.ofNat 16 (bits n 25 10)))
    else if x = 0 then mdir
    else decide (bits n 17 10 ≤ x.toNat)
  | _, _ => mdir

/-- The node reached after `n` levels from node `i` (R250). -/
def treeWalk (feats : List FeatEntry) (v : List (BitVec 32 × Bool)) (nodes : List (BitVec 32)) (n i : Nat) : Nat :=
  match n with
  | 0 => i
  | n + 1 => treeWalk feats v nodes n (2 * i + 1 + (if goesRight feats v (nodes.getD i 0) then 1 else 0))

/-- The leaf vector that a sample reads, each element widened exactly. -/
def treeLeaf (feats : List FeatEntry) (v : List (BitVec 32 × Bool)) (d : Nat) (t : Tree) : List (BitVec 32) :=
  (t.leaves.getD (treeWalk feats v t.nodes d 0 - (2 ^ d - 1)) []).map fun e => (widen e).1

/-! ### Reduction (R255, R260, R261) -/

/-- The trees of pass `k` at pass width `w`. -/
def passTrees (e : Ensemble) (w k : Nat) : List Tree := (e.trees.drop (k * w)).take w

/-- Passes of an ensemble at pass width `w`. -/
def passesAt (e : Ensemble) (w : Nat) : Nat := if e.ntrees = 0 then 0 else cdiv e.ntrees w

/-- The sums of pass `k`, one for each score element, and the flags of their additions. -/
def passSums (feats : List FeatEntry) (v : List (BitVec 32 × Bool)) (e : Ensemble) (w k : Nat) : List (BitVec 32) × Byte :=
  let leaves := (passTrees e w k).map (treeLeaf feats v e.depth)
  let rs := (List.range e.lw).map fun i => pairwise (plainTerms (leaves.map fun l => l.getD i 0))
  (rs.map (·.1), rs.foldl (fun a r => a ||| r.2) 0)

/-- Adds the sums of a later pass to those accumulated. -/
def addSums (a b : List (BitVec 32)) : List (BitVec 32) × Byte :=
  let rs := (a.zip b).map fun x => add32 x.1 x.2
  (rs.map (·.1), rs.foldl (fun a r => a ||| r.2) 0)

/-- The score: the accumulated sums with the bias added; the bias alone where no pass ran. Elements at and above the leaf
width are +0. -/
def scoreOf (e : Ensemble) (sums : List (BitVec 32)) : List (BitVec 32) × Byte :=
  let bias := e.bias.take e.lw
  let r := if e.ntrees = 0 then (bias, 0) else addSums sums bias
  (r.1 ++ List.replicate (4 - e.lw) 0, r.2)

/-! ### The decision stage (R262, R263) -/

/-- Whether a test of a rule holds for a score. -/
def testHolds (score : List (BitVec 32)) (t : Byte) (thr : BitVec 32) : Bool :=
  let x := dec32 (score.getD (t.toNat % 4) 0)
  if bit t.toNat 4 then geVal x (dec32 thr) else ltVal x (dec32 thr)

/-- The first rule that decides, from rule number `i` on. -/
def firstRule (score : List (BitVec 32)) (i : Nat) (l : List Rule) : Option (Nat × Rule) :=
  match l with
  | [] => none
  | r :: l =>
    if r.op = 0 then none
    else if r.op = 2 then some (i, r)
    else if testHolds score r.testA r.thrA && (!bit r.testB.toNat 6 || testHolds score r.testB r.thrB) then some (i, r)
    else firstRule score (i + 1) l

/-- The index of the largest of the first elements, ties to the lower index; 4 when one of them is a NaN (R263). -/
def argmaxOf (score : List (BitVec 32)) : Nat :=
  if score.any fun x => dec32 x = .nan then 4
  else (score.zipIdx.foldl (fun (b : Option (BitVec 32 × Nat)) x =>
    match b with
    | none => some x
    | some y => if ltVal (dec32 y.1) (dec32 x.1) then some x else some y) none).elim 0 (·.2)

/-- No rule decided. -/
def noRule : Nat := 0x1F

/-- Choice and deciding rule of a score. -/
def decideScore (e : Ensemble) (score : List (BitVec 32)) : BitVec 16 × Nat :=
  if e.argmax then
    let k := argmaxOf (score.take e.lw)
    (match e.rules[k]? with | some r => r.choice | none => 0xFFFF, k)
  else match firstRule score 0 e.rules with
    | some (k, r) => (r.choice, k)
    | none => (0xFFFF, noRule)

/-! ### Commands -/

/-- Whether an ensemble slot waits to be placed again: a slice that holds a tree of it is retired (R271). -/
def misplaced (s : State) (x : EnsSlot) : Bool := x.place.any fun q => sliceRetired s q.1

/-- Whether the trees of an ensemble slot can be read: none of them waits to be placed again, and every domain that holds one is
On with its words (R271, R272). -/
def treesReady (s : State) (x : EnsSlot) : Bool := !misplaced s x && x.lost.isEmpty && (ensDomains x).all (domIsOn s)

/-- GARNET_PASS (R257–R260): the next pass of a message leaves the reduction network. Its passes are those of one width W, that of
its first. -/
def execGarnetPass (message : Nat) (s : State) : Host.Outcome State Fault Refusal :=
  .next (
    match msgAt s message with
    | none => s
    | some x =>
      let y := ensAt s x.ctx x.ens
      match y.ens, (ctxAt s x.ctx).image with
      | some e, some im =>
        let w := widthOf x y
        if !inGarnet x || passesAt e w ≤ x.pass || !treesReady s y then s
        else
          let r := passSums im.feat.feats x.features e w x.pass
          let a := if x.pass = 0 then (r.1, 0) else addSums x.sums r.1
          let s := if x.pass = 0 then garnetSample s message 1 [] else s
          progress (setMsg s message { x with pass := x.pass + 1, width := w, sums := a.1, flags := x.flags ||| r.2 ||| a.2 }) x.ctx 2
      | _, _ => s)

/-- TREE_DECISION (R260–R264): the bias is added, the rules are evaluated, and the record goes to the Chimney. -/
def execTreeDecision (message : Nat) (s : State) : Host.Outcome State Fault Refusal :=
  .next (
    match msgAt s message with
    | none => s
    | some x =>
      let y := ensAt s x.ctx x.ens
      match y.ens with
      | none => s
      | some e =>
        if !inGarnet x || x.pass < passesAt e (widthOf x y) then s
        else
          let sc := scoreOf e x.sums
          let d := decideScore e sc.1
          let flags := x.flags ||| sc.2
          let s := handRecord s message x { choice := d.1, rule := d.2, scores := sc.1, flags := flags }
          let s := stick s (cb x.ctx 4) 2 flags
          let s := bump s (cb x.ctx 4) 8
          let s := if d.2 = noRule then bump s (cb x.ctx 4) 9 else s
          let s := garnetSample s message 2 sc.1
          settleEns s x.ctx)

/-- TREE_MEMORY_ERROR (R270, R495) in a word that a sample of the message reads, or in the datapath: a corrected error is counted
and the word rewritten as it was, with no effect on the message. Otherwise the message's decision is a no-send; an uncorrectable
word has its record reloaded, and the programs of the ensemble are declined until then. A slice that reaches its threshold is
retired. -/
def execTreeMemoryError (message : Nat) (slice : BitVec 9) (word : BitVec 13) (kind : ErrKind) (s : State) :
    Host.Outcome State Fault Refusal :=
  .next (
    match msgAt s message with
    | none => s
    | some x =>
      if !inGarnet x || (kind ≠ .residue && !holdsWord (ensAt s x.ctx x.ens) slice.toNat word.toNat) then s
      else if kind = .corrected then bump s 0x2500 4
      else
        let s := noSend (garnetSample s message 3 []) message (cb x.ctx 4) 0x0A
        let s := bump s 0x2500 5
        let s := sootCtx s x.ctx 0x2501 (x.ens + 65536 * slice.toNat) word.toNat
        let s := if kind = .uncorrectable then setEns s x.ctx x.ens { ensAt s x.ctx x.ens with damaged := true } else s
        let s := settleEns s x.ctx
        let r := strike s 2 slice.toNat
        if r.1 then retireSlice r.2 slice.toNat else r.2)

/-- TREE_RELOAD_DONE (R270). -/
def execTreeReloadDone (c : BitVec 6) (slot : BitVec 4) (s : State) : Host.Outcome State Fault Refusal :=
  let x := ensAt s c.toNat slot.toNat
  .next (if misplaced s x then s else setEns s c.toNat slot.toNat { x with damaged := false })

/-- SLICE_RETIRE (R271). -/
def execSliceRetire (slice : BitVec 9) (s : State) : Host.Outcome State Fault Refusal := .next (retireSlice s slice.toNat)

/-- RELAYOUT_DONE (R271): the ensemble is placed again, or becomes Unplaced. Its slot keeps its state where it is placed. -/
def execRelayoutDone (c : BitVec 6) (slot : BitVec 4) (s : State) : Host.Outcome State Fault Refusal :=
  let c := c.toNat
  let k := slot.toNat
  let x := ensAt s c k
  .next (
    match x.ens with
    | none => s
    | some e =>
      if !misplaced s x then s
      else
        let gone := ((x.place.map (·.1)).find? fun j => sliceRetired s j).getD 0
        let free := setEns s c k { x with place := [] }
        let changed := if passWidth s e = x.width then 0 else 256
        let s := match placeEnsemble free c e with
          | some place => bump32 (setEns s c k (placedSlot s x.state e place)) 0x2500 6
          | none => setEns s c k { x with state := .unplaced, place := [], damaged := false, lost := [] }
        let s := requestAllOn s (ensDomains (ensAt s c k))
        sootCtx s c 0x2502 (k + changed) gone)

/-! ### Changing ensembles (R266–R268) -/

/-- Whether a context is Closed or Open, as runtime loads and switches ask. -/
def mayChange (s : State) (c : Nat) : Bool := isLoaded s c

/-- The ensemble of a fragment's body, checked against the context's features and templates (R254, R266). -/
def fragmentEnsemble (s : State) (im : Image) (body : Bytes) : Option Ensemble :=
  match readEnsemble (body.take 288) (body.drop 288) with
  | none => none
  | some e =>
    if 288 ≤ body.length && e.toff = 0 && body.length = 288 + ensBytes e && nodesMatch im.feat.feats e
        && choicesPresent im.chim.templates.length e && passesOk s e then some e
    else none

/-- Ensemble load into slot `k`: the checks of R266 in the order of its table, then the placement. -/
def applyEnsembleLoad (c k : Nat) (data : Bytes) (s : State) : Ans :=
  match (ctxAt s c).image with
  | none => .error abState
  | some im =>
    if !mayChange s c || (ensAt s c k).state ≠ .empty then .error abState
    else match fragmentBody s 2 c data with
      | .error a => .error a
      | .ok body =>
        match fragmentEnsemble s im body with
        | none => .error abRange
        | some e =>
          match placeEnsemble s c e with
          | none => .error abMemory
          | some place =>
            let x := placedSlot s .loaded e place
            .ok (requestAllOn (setEns s c k x) (ensDomains x))

/-- Whether the staging area can take a container: it is free and the Flue is up (R536, R537). -/
def stagingFree (s : State) : Bool := val s 0x2020 4 = 0 && !flueDown s

/-- A fragment download given whole: the staging area must be free, then the object's rules (R537). -/
def stagedWrite (go : State → Ans) (s : State) : Ans := if stagingFree s then go s else .error abState

/-- ENSEMBLE_LOAD (R266). -/
def execEnsembleLoad (q : Requester) (c : BitVec 6) (container : Bytes) (s : State) : Host.Outcome State Fault Refusal :=
  .next (request s q (cb c.toNat 4) 5 container
    (stagedWrite fun s => applyEnsembleLoad c.toNat (selected s q (cb c.toNat 4) 3) container s))

/-- The rules of CB+0x04:06 (R268). -/
def writeEnsembleCommand (q : Requester) (c : Nat) (s : State) : Ans :=
  let k := selected s q (cb c 4) 3
  match (ensAt s c k).state with
  | .active => .error abState
  | .draining => .error abState
  | _ => .ok (setEns s c k EnsSlot.reset)

/-- ENSEMBLE_FREE (R268): Ensemble command 1. -/
def execEnsembleFree (q : Requester) (c : BitVec 6) (s : State) : Host.Outcome State Fault Refusal :=
  .next (request s q (cb c.toNat 4) 6 [1] (writeEnsembleCommand q c.toNat))

/-- The work bounds a program entry would have on ensemble slot `k`, with their class limits: one for each layout that the
entry serves and each placement that the program's kind allows (R267). -/
def switchBounds (s : State) (c e k : Nat) : List (Time × Time) :=
  match (ctxAt s c).image with
  | none => []
  | some im =>
    let x := ensAt s c k
    match x.ens with
    | none => []
    | some en =>
      let kind := if 8 ≤ e then PKind.s else PKind.t
      (im.layouts.filter fun l => l.2.valid && l.2.pkind = (if 8 ≤ e then 2 else 1) && l.2.pindex = e % 8).flatMap fun l =>
        ((if 8 ≤ e then [1, 2] else [1]).filterMap fun pl => treeProg s c im l.2 kind x en pl).filterMap fun p =>
          (classI p.klass).map fun i => (p.work, i)

/-- The rules of CB+0x04:07 (R267). -/
def writeProgramSwitch (c : Nat) (data : Bytes) (s : State) : Ans :=
  let v := leNat data
  let e := bits v 7 4
  let k := v % 16
  let x := ensAt s c k
  if !(x.state = .loaded || x.state = .active) || !mayChange s c then .error abState
  else match progAt s c e with
    | none => .error abState
    | some old =>
      let bs := switchBounds s c e k
      if !bs.isEmpty && bs.all (fun b => b.2 < b.1) then .error abRange
      else if old = k && x.state = .active then .ok s
      else
        let s := setEns s c k { x with state := .active }
        let r := ctxAt s c
        let s := setCtx s c { r with progs := tabSet none r.progs e (some k) }
        let y := ensAt s c old
        .ok (if old = k || y.state ≠ .active || slotNamed s c old then s
          else settleEns (setEns s c old { y with state := .draining }) c)

/-- PROGRAM_SWITCH (R267). -/
def execProgramSwitch (q : Requester) (c : BitVec 6) (value : BitVec 16) (s : State) : Host.Outcome State Fault Refusal :=
  .next (request s q (cb c.toNat 4) 7 (toLe 2 value.toNat) (writeProgramSwitch c.toNat (toLe 2 value.toNat)))

end Sys2Proof.Machine
end

