-- ==== Sys2Proof/Machine/ChimneyImages.lean ====
section
/-! DEFINITION. The Chimney image (13): its reading, and the load errors of R410 that need no other part of the image. -/

namespace Sys2Proof.Machine

/-! ### Reading (R405–R408) -/

/-- The largest SEL and SEL2 of a source (R408); none for a code outside the table. -/
def sourceLimits (src : Nat) : Option (Nat × Nat) :=
  match src with
  | 0x01 => some (3, 0)
  | 0x02 => some (47, 0)
  | 0x03 => some (47, 3)
  | 0x09 => some (1, 3)
  | _ => if (4 ≤ src && src ≤ 8) || src = 0x0A || (0x10 ≤ src && src ≤ 0x12) then some (0, 0) else none

/-- An insertion slot entry. A time slot is 4 or 8 bytes wide (DEDUCED, notes/assumptions/33). -/
def readInsSlot (b : Bytes) : Option InsSlot :=
  let fmt := (byteAt b 4).toNat
  let i : InsSlot :=
    { off := leAt b 0 2, src := (byteAt b 2).toNat, width := (byteAt b 3).toNat, be := bit fmt 0, round := bit fmt 1,
      sel := (byteAt b 5).toNat, sel2 := (byteAt b 6).toNat }
  match sourceLimits i.src with
  | none => none
  | some (a, b2) =>
    if i.sel ≤ a && i.sel2 ≤ b2 && 1 ≤ i.width && i.width ≤ 8 && fmt < 4 && byteAt b 7 = 0
        && (i.src ≠ 9 || i.width = 4 || i.width = 8) then some i
    else none

/-- Whether two slots write a common byte. -/
def slotsMeet (a b : InsSlot) : Bool := a.off < b.off + b.width && b.off < a.off + a.width

/-- Whether the insertion slots of a template are allowed (R410). -/
def slotsOk (t : Template) : Bool :=
  (t.slots.all fun i => i.off + i.width ≤ t.len
    && (!(5 ≤ i.src && i.src ≤ 8) || t.sess)
    && (!((6 ≤ i.src && i.src ≤ 8) || i.src = 0x12) || t.l4 = 2)
    && (!(i.src = 0x10) || t.l4 ≠ 0) && (!(i.src = 0x11) || t.l4 = 1))
  && (t.slots.zipIdx.all fun a => t.slots.zipIdx.all fun b => a.2 = b.2 || !slotsMeet a.1 b.1)
  && (t.qins = 0xFF || t.qins < t.nins) && (t.pins = 0xFF || t.pins < t.nins)

/-- Whether the checksum slots stand at their headers' checksum fields (R410). -/
def checksumSlotsOk (t : Template) (body : Bytes) : Bool :=
  t.slots.all fun i => !checksumSlot i ||
    (i.width = 2 && i.off = (match i.src with | 0x10 => bodyIp body + 10 | 0x11 => bodyL4 body + 6 | _ => bodyL4 body + 16))

/-- The header checks of an L4 1 or 2 body (R170 orders 1 to 4, R410), its IPv4 header checksum as the image carries it. -/
def bodyHeadersOk (t : Template) (body : Bytes) : Bool :=
  match frameTags body with
  | none => false
  | some (.other, _) => false
  | some (_, e) =>
    let ip := e + 2
    let n := body.length
    let ihl := 4 * ((byteAt body ip).toNat % 16)
    let l4 := ip + ihl
    decide (ip + 20 ≤ n) && beAt body e 2 = 0x0800 && (byteAt body ip).toNat / 16 = 4 && 20 ≤ ihl
      && beAt body (ip + 6) 2 % 16384 = 0 && (byteAt body (ip + 9)).toNat = (if t.l4 = 1 then 17 else 6)
      && l4 + (if t.l4 = 1 then 8 else 20) ≤ n && beAt body (ip + 2) 2 = n - ip
      && (if t.l4 = 1 then beAt body (l4 + 4) 2 = n - l4
          else (byteAt body (l4 + 12)).toNat / 16 = 5 && ((byteAt body (l4 + 13)).toNat = 0x10 || (byteAt body (l4 + 13)).toNat = 0x18)
            && l4 + 20 < n)
      && ipChecksum (slice body ip ihl) = 0

/-- A template record. -/
def readTemplate (b : Bytes) : Option Template :=
  let fl := (byteAt b 0).toNat
  let kp := (byteAt b 24).toNat
  let n := (byteAt b 4).toNat
  if 16 < n then none
  else match readRecords readInsSlot 8 n (b.drop 32) with
    | none => none
    | some slots =>
      let t : Template :=
        { valid := bit fl 0, l4 := bits fl 2 1, sess := bit fl 3, ucsum0 := bit fl 4, port := (byteAt b 1).toNat,
          len := leAt b 2 2, nins := n, session := (byteAt b 5).toNat, qins := (byteAt b 6).toNat, pins := (byteAt b 7).toNat,
          kwait := leAt b 8 2, kinc := leAt b 10 2, kexp := leAt b 12 8, kamt := leAt b 20 4, kpoint := kp,
          kstep := (byteAt b 25).toNat, slots := slots, body := slice b 160 256 }
      let body := t.body.take t.len
      if fl < 32 && t.l4 ≠ 3 && t.port < 8 && (t.len = 0 || (14 ≤ t.len && t.len ≤ 256)) && kp < 3 && zeroAt b 26 6
          && (if t.sess then t.session < 64 else t.session = 0)
          && slotsOk t && (t.l4 = 0 || (bodyHeadersOk t body && checksumSlotsOk t body)) then some t
      else none

/-- Whether the templates of an image name sessions as R410 asks. -/
def sessionsOk (mask : Nat) (ts : List Template) : Bool :=
  ts.all fun t => !t.sess || (bit mask t.session && ts.all fun u => !u.sess || u.session ≠ t.session || u.port = t.port)

/-- The image of a context without a Chimney part (R535). -/
def ChimImage.empty : ChimImage := { templates := [], sessmask := 0, rent := 0, raw := [] }

/-- The Chimney part, as far as it stands alone. -/
def readChimney (bs : Bytes) : Option ChimImage :=
  let n := leAt bs 2 2
  let rent := leAt bs 12 4
  if bs.length ≠ 32 + 416 * n || byteAt bs 0 ≠ 1 || byteAt bs 1 ≠ 0 || 4096 < n || 65535 < rent || !zeroAt bs 16 16 then none
  else match readRecords readTemplate 416 n (bs.drop 32) with
    | none => none
    | some ts =>
      if sessionsOk (leAt bs 4 8) ts && (rent ≠ 0 || ts.all fun t => t.l4 ≠ 2) then
        some { templates := ts, sessmask := BitVec.ofNat 64 (leAt bs 4 8), rent := rent, raw := bs }
      else none

/-- Whether the counters that a Chimney image names lie in the context's range (R25, R410). -/
def templateCountersOk (range : Nat × Nat) (im : ChimImage) : Bool :=
  im.templates.all fun t => [t.kwait, t.kinc].all fun k => k = 0xFFFF || (range.1 ≤ k && k < range.1 + range.2)

/-- Templates held by the loaded contexts (0x2900:02). -/
def templatesInUse (s : State) : Nat :=
  (s.ctxs.map fun x => match x.2.image with | none => 0 | some m => m.chim.templates.length).sum

end Sys2Proof.Machine
end

