-- ==== Sys2Proof/Machine/Loader.lean ====
section
/-! DEFINITION. The loading of a context image (01, 17): the checks of R536 in their order, and the context as the image
leaves it. Each check names the cause that it fails the load with (R483). -/

namespace Sys2Proof.Machine

/-- Format or range (R483). -/
def causeFormat : Nat := 0x0102
/-- Resources or pool (R483). -/
def causeResource : Nat := 0x0103

/-- A check of the loader. -/
def check (cause : Nat) (ok : Bool) : Except Nat Unit := if ok then .ok () else .error cause

/-- A part that must read. -/
def need {α : Type} (cause : Nat) (x : Option α) : Except Nat α := match x with | some v => .ok v | none => .error cause

/-- A part's data, read by `f`; `dflt` where the image has no such part (R535). -/
def readPart {α : Type} (ps : List (Nat × Bytes)) (id : Nat) (dflt : α) (f : Bytes → Option α) : Option α :=
  match partOf ps id with
  | none => some dflt
  | some b => f b

/-- The feature image of a context without that part. -/
def FeatImage.empty : FeatImage := { slots := [], feats := [], events := [], edges := [], raw := [] }

/-- The counter range part: base and count (R535). -/
def readCounters (b : Bytes) : Option (Nat × Nat) :=
  if b.length = 8 && zeroAt b 4 4 then some (leAt b 0 2, leAt b 2 2) else none

/-! ### Resources (R12, R99, R310, R320, R535) -/

/-- Whether an instrument set shares an index with that of another context. -/
def sharesInstruments (s : State) (c : Nat) (ranges : List (Nat × Nat)) : Bool :=
  allCtxs.any fun d => d ≠ c && ctxState s d != .free &&
    match (ctxAt s d).image with
    | none => false
    | some m => m.ranges.any fun a => ranges.any fun b => a.2 ≠ 0 && b.2 ≠ 0 && a.1 < b.1 + b.2 && b.1 < a.1 + a.2

/-- Whether a context's entry may be placed at a port's filter index (R99). -/
def filterFree (s : State) (c : Nat) (f : Nat × Nat × BitVec 256) : Bool :=
  let x := portAt s f.1
  8 ≤ f.2.1 && !bit (filterWord (tabGet 0 x.filters f.2.1) 0) 31 && x.reserved.all fun r => r.1 ≠ f.2.1 || r.2 = c

/-- Whether two counter ranges overlap. -/
def rangesMeet (a b : Nat × Nat) : Bool := a.2 ≠ 0 && b.2 ≠ 0 && a.1 < b.1 + b.2 && b.1 < a.1 + a.2

/-- Whether the counter range of a context overlaps that of another that is not Free (R463). -/
def countersMeet (s : State) (c : Nat) (r : Nat × Nat) : Bool :=
  allCtxs.any fun d => d ≠ c && ctxState s d != .free && rangesMeet r (counterRange s d)

/-- Places the ensembles of an image in its slots in order. -/
def placeAll (c : Nat) (k : Nat) (es : List Ensemble) (s : State) : Option State :=
  match es with
  | [] => some s
  | e :: es =>
    match placeEnsemble s c e with
    | none => none
    | some place =>
      let st := if slotNamed s c k then EnsState.active else .loaded
      placeAll c (k + 1) es (setEns s c k (placedSlot s st e place))

/-- Allocates `n` local runs of `bytes` each for a context. -/
def placeRuns (c n bytes : Nat) (s : State) : Option State :=
  match n with
  | 0 => some s
  | n + 1 =>
    if bytes = 0 then some s
    else match fitLocal s c bytes with
      | none => none
      | some a => placeRuns c n bytes (setCtx s c { ctxAt s c with runs := (ctxAt s c).runs ++ [(a, bytes)] })

/-- Places the caches of instruments in order. -/
def placeCaches (c : Nat) (l : List Nat) (s : State) : Option State :=
  match l with
  | [] => some s
  | i :: l => (placeCache s c i).bind (placeCaches c l)

/-- Instruments as Loading leaves them: rows not valid, slots never published, next numbers 1, caches empty (R232, R305).
The placement version is kept (DEDUCED, notes/assumptions/33). -/
def freshInstrument (s : State) (i : Nat) : State :=
  let s := setSlot (setRow s i []) i Slot.reset
  resetCache (setDir s i { Dir.reset with ver := (dirAt s i).ver }) i

/-! ### Bounds (R47, R48) -/

/-- Whether a program with a bound lies above its class limit. -/
def aboveLimit (p : Prog) : Bool := match classI p.klass with | none => false | some i => decide (i < p.work)

/-- Whether a layout's program lies above the limit of every class it can take (R47): an S program in local and in remote
space. -/
def layoutAbove (s : State) (c : Nat) (l : Layout) : Bool :=
  let ps := (if l.pkind = 2 then [1, 2] else [1]).filterMap fun pl => progOf s c l pl
  !ps.isEmpty && ps.all aboveLimit

/-! ### Checks between parts (R179, R242, R254, R278, R536) -/

/-- Whether a layout's FILTER and PINDEX name something in the image. -/
def layoutRefersOk (filters : List (Nat × Nat × BitVec 256)) (progs : List (Option Nat)) (opal : Option OpalImage)
    (hearth : Option HConfig) (n : Nat) (l : Layout) : Bool :=
  (filters.any fun f => f.2.1 = l.filter && bit (filterWord f.2.2 0) 31 && bits (filterWord f.2.2 0) 28 27 = 0)
    && (match l.pkind with
      | 1 => (progs.getD l.pindex none).isSome
      | 2 => (progs.getD (8 + l.pindex) none).isSome && (match opal with | none => false | some m => bit m.elmask n)
      | _ => match hearth with | none => false | some g => (match g.progs[l.pindex]? with | none => false | some p => p.valid))

/-! ### The load -/

/-- The parts of an image that stand, and the context as its engines hold them. -/
structure Loaded where
  image : Image
  state : State

/-- The Opal part and the local and remote space of a context: scratch slots, then the resend ring, then the caches
(R299, R310, R320). The ring that does not fit is the Chimney part's failure. -/
def loadStore (s : State) (c : Nat) (opal : Option OpalImage) (ranges : List (Nat × Nat)) (rent : Nat) :
    Except Nat (Bool × State) := do
  let s ← match opal with
    | none => Except.ok s
    | some m => do
      check causeResource (weightsFit s c m)
      need causeResource (placeRuns c m.nscr (scratchBytes m) (setCtx s c { ctxAt s c with weights := some m }))
  let ring := placeRuns c (if rent = 0 then 0 else 1) (320 * rent) s
  let s := ring.getD s
  let is := (ranges.flatMap fun r => (List.range r.2).map (r.1 + ·)).mergeSort
  let s := is.foldl freshInstrument s
  let s ← need causeResource (placeCaches c is s)
  .ok (ring.isSome, s)

/-- The Hearth part: read and checked by itself, with room in the store (R378, R383, R384). -/
def loadHearth (s : State) (c : Nat) (ps : List (Nat × Bytes)) (probes : List Nat) : Except Nat (Option HConfig) := do
  let h ← need causeFormat (readPart ps 7 none readConfig)
  match h with
  | none => .ok none
  | some g => do
    check causeFormat (configOk s (val s (cb c 2) 0x20 = 1) (0, 1024) g probes)
    check causeResource (configFits s g && !configClash s c g && (emptyHslot s).isSome)
    .ok (some g)

/-- The checks of R536 on an image, in their order, and what it makes of context `c`, which is Loading. -/
def loadImage (s : State) (c : Nat) (container : Bytes) (probes : List Nat) : Except Nat Loaded := do
  let body ← match openBox s.sys.keyHash 1 c (val s 0x2020 3) container with
    | .ok b => Except.ok b
    | .error .format => .error causeFormat
    | .error .key => .error 0x0101
  let ps ← need causeFormat (readParts 10 0 body)
  -- each part by itself, in ID order
  let ranges ← need causeFormat (readPart ps 1 [] readHeader)
  check causeResource (!sharesInstruments s c ranges)
  let filters ← need causeFormat (readPart ps 2 [] (readFilters s c))
  check causeFormat (filters.all (filterFree s c))
  let layouts ← need causeFormat (readPart ps 3 [] readLayoutPart)
  let feat ← need causeFormat (readPart ps 4 FeatImage.empty readFeatImage)
  check causeResource (edgesInUse s + feat.edges.length ≤ 262144)
  let garnet ← need causeFormat (readPart ps 5 GarnetPart.empty readGarnet)
  check causeFormat (garnet.ensembles.all (passesOk s))
  let progs := garnet.progs.zipIdx.foldl (fun t p => tabSet none t p.2 p.1) ([] : Tab (Option Nat))
  let blank : Ctx := { Ctx.reset with td := (ctxAt s c).td, storms := (ctxAt s c).storms, progs := progs,
                                      live := val s (cb c 2) 0x20 = 1 }
  let t ← need causeResource (placeAll c 0 garnet.ensembles (setCtx s c blank))
  let opal ← need causeFormat (readPart ps 6 none readOpal)
  let rent := match readPart ps 8 ChimImage.empty readChimney with | some x => x.rent | none => 0
  let part : Image :=
    { id := boxId container, kb := cdiv container.length 1024, ranges := ranges, filters := filters, layouts := layouts,
      feat := feat, progs := garnet.raw, ensembles := garnet.ensembles, opal := opal, hearth := none,
      chim := ChimImage.empty, counters := none }
  let (ring, t) ← loadStore (setCtx t c { ctxAt t c with image := some part }) c opal ranges rent
  let hearth ← loadHearth s c ps probes
  let chim ← need causeFormat (readPart ps 8 ChimImage.empty readChimney)
  check causeResource ((List.range 64).all fun k => !bit chim.sessmask.toNat k || sessOwner s k = 0xFF || sessOwner s k = c)
  check causeResource (templatesInUse s + chim.templates.length ≤ 4096 && ring)
  let counters ← need causeFormat (readPart ps 9 none fun b => (readCounters b).map some)
  check causeFormat (match counters with | none => true | some r => r = counterRange s c)
  check causeResource (!countersMeet s c (counterRange s c))
  -- between the parts
  check causeFormat (layouts.all fun l => layoutRefersOk filters garnet.progs opal hearth l.1 l.2)
  check causeFormat (featureChecks layouts feat)
  check causeFormat (garnet.ensembles.all fun e => nodesMatch feat.feats e && choicesPresent chim.templates.length e)
  check causeFormat (match opal with | none => true | some m => opalTensorOk m feat)
  check causeFormat (match hearth with | none => true | some g => countersOk (counterRange s c) g)
  check causeFormat (templateCountersOk (counterRange s c) chim)
  -- the Hearth proof
  let proven ← match hearth with
    | none => Except.ok none
    | some g => do
      let g ← need 0x0105 (proveConfig 8 0 g)
      check causeResource (configFits s g)
      .ok (some g)
  let image := { part with hearth := proven, chim := chim, counters := counters }
  let t := setCtx t c { ctxAt t c with image := some image }
  let t := match proven, emptyHslot t with
    | some g, some k => activate (setHslot t k (some { state := .stored, owner := c, cfg := some g, fromImage := true })) c k
    | _, _ => t
  -- the bounds
  check 0x0104 (layouts.all fun l => !l.2.valid || !layoutAbove t c l.2)
  .ok { image := image, state := t }

end Sys2Proof.Machine
end

