-- ==== Sys2Proof/Machine/Symbols.lean ====
section
/-! DEFINITION. Symbol edit (05): inserting and removing keys of the symbol table. -/

namespace Sys2Proof.Machine

/-- The other slot of the key that a slot holds. -/
def otherSlot (k : Nat) (e : Nat × BitVec 64 × Nat) : Nat := symbolSlot e.1 e.2.1 (if k < 8192 then 1 else 0)

/-- The slots along which residents move, from `k` to a free slot, at most `n` moves (R185); none when no free slot is
reached. -/
def movePath (n : Nat) (s : State) (seen : List Nat) (k : Nat) : Option (List Nat) :=
  match symbolAt s k with
  | none => some (seen ++ [k])
  | some e =>
    match n with
    | 0 => none
    | n + 1 => if seen.contains k then none else movePath n s (seen ++ [k]) (otherSlot k e)

/-- Moves each resident of a path into the next slot, the last one first: an entry stands in its new slot before its old
one is freed (R185). -/
def moveAlong (s : State) (path : List Nat) : State :=
  match path with
  | a :: b :: rest =>
    let s := moveAlong s (b :: rest)
    setSymbol (setSymbol s b (symbolAt s a)) a none
  | _ => s

/-- A slot for a key: a free one of either way, or one freed by at most 64 moves (R185). Which way is tried first is the
model's choice (DESIGN CHOICE, notes/assumptions/21). -/
def makeRoom (s : State) (c : Nat) (sym : BitVec 64) : Option (Nat × State) :=
  let a := symbolSlot c sym 0
  let b := symbolSlot c sym 1
  if (symbolAt s a).isNone then some (a, s)
  else if (symbolAt s b).isNone then some (b, s)
  else match movePath 64 s [] a with
    | some p => some (a, moveAlong s p)
    | none =>
      match movePath 64 s [] b with
      | some p => some (b, moveAlong s p)
      | none => none

/-- Whether an instrument has a symbol in a context. -/
def hasSymbol (s : State) (c i : Nat) : Bool :=
  s.work.symbols.any fun x => match x.2 with | some (c', _, i') => c' = c && i' = i | none => false

/-- The bytes of a Symbol edit (R195). -/
def symbolEdit (op : Nat) (instr : BitVec 16) (sym : BitVec 64) : Bytes :=
  [BitVec.ofNat 8 op, 0] ++ toLe 2 instr.toNat ++ [0, 0, 0, 0] ++ toLe 8 sym.toNat

/-- The rules of CB+0x02:13 (R6, R195). A remove reads no instrument, but its reserved bits are held to zero like those of any
edit. -/
def writeSymbol (c : Nat) (data : Bytes) (s : State) : Ans :=
  let op := (byteAt data 0).toNat
  let instr := leAt data 2 2
  let sym := BitVec.ofNat 64 (leAt data 8 8)
  if data.length < 16 then .error abShort
  else if 16 < data.length then .error abLong
  else if !zeroAt data 1 1 || !zeroAt data 4 4 || 16384 ≤ instr then .error abRange
  else if !isLoaded s c then .error abState
  else if op = 1 then
    if !inInstruments s c instr then .error abRange
    else if (symbolFind s c sym).isSome || hasSymbol s c instr then .error abState
    else match makeRoom s c sym with
      | none => .error abMemory
      | some (k, s) => .ok (setSymbol s k (some (c, sym, instr)))
  else if op = 2 then
    match symbolFind s c sym with
    | none => .error abState
    | some (k, _) => .ok (setSymbol s k none)
  else .error abRange

/-- SYMBOL_INSERT (R185, R195). -/
def execSymbolInsert (q : Requester) (c : BitVec 6) (instrument : BitVec 16) (symbol : BitVec 64) (s : State) :
    Host.Outcome State Fault Refusal :=
  let data := symbolEdit 1 instrument symbol
  .next (request s q (cb c.toNat 2) 0x13 data (writeSymbol c.toNat data))

/-- SYMBOL_REMOVE (R185, R195). -/
def execSymbolRemove (q : Requester) (c : BitVec 6) (symbol : BitVec 64) (s : State) : Host.Outcome State Fault Refusal :=
  let data := symbolEdit 2 0 symbol
  .next (request s q (cb c.toNat 2) 0x13 data (writeSymbol c.toNat data))

end Sys2Proof.Machine
end

