-- ==== Sys2Proof/Machine/Contexts.lean ====
section
/-! DEFINITION. Context states (01, 16): the commands of CB:03, loading, the purge and rewriting of a teardown, unloading, and
the hang windows. -/

namespace Sys2Proof.Machine

/-! ### Parts that several transitions share -/

/-- Whether a filter entry is valid and belongs to context `c` (R92). -/
def filterOf? (c : Nat) (e : BitVec 256) : Bool :=
  let w := filterWord e 0
  bit w 31 && bits w 30 29 = 1 && bits w 23 18 = c

/-- The filter entries of a context are invalidated on every port (R99). -/
def dropFilters (s : State) (c : Nat) : State :=
  allPorts.foldl (fun s p =>
    let x := portAt s p
    setPort s p { x with filters := x.filters.filter fun f => !filterOf? c f.2 }) s

/-- The filter entries of an image become valid, and the reservations of its context end (R99). -/
def placeFilters (s : State) (c : Nat) (fs : List (Nat × Nat × BitVec 256)) : State :=
  let s := fs.foldl (fun s f => setFilter s f.1 f.2.1 f.2.2) s
  allPorts.foldl (fun s p =>
    let x := portAt s p
    setPort s p { x with reserved := x.reserved.filter fun r => r.2 ≠ c }) s

/-- The indices that an image names are reserved while it loads (R99). -/
def reserveFilters (s : State) (c : Nat) (fs : List (Nat × Nat × BitVec 256)) : State :=
  fs.foldl (fun s f =>
    let x := portAt s f.1
    if x.reserved.contains (f.2.1, c) then s else setPort s f.1 { x with reserved := x.reserved ++ [(f.2.1, c)] }) s

/-- Whether an object is of retention class C (R554). -/
def isC (i sub : Nat) : Bool :=
  match findRow i sub with
  | none => false
  | some r => r.ret == .c

/-- The C objects of a context block take their defaults (R554). -/
def clearBlock (s : State) (c : Nat) : State :=
  { s with objs := s.objs.filter fun x =>
      !(decide (cb c 0 ≤ x.1 / 256) && decide (x.1 / 256 < cb c 16) && isC (x.1 / 256) (x.1 % 256)) }

/-- The counters of a context's range are set to 0 (R464). -/
def zeroCounters (s : State) (c : Nat) : State :=
  let r := counterRange s c
  { s with ctr := { s.ctr with
      values := s.ctr.values.filter fun x => !(decide (r.1 ≤ x.1) && decide (x.1 < r.1 + r.2))
      saturated := s.ctr.saturated.filter fun k => !(decide (r.1 ≤ k) && decide (k < r.1 + r.2)) } }

/-- Puts the teardown of a context into a phase. -/
def setPhase (s : State) (c : Nat) (p : Phase) : State :=
  let x := ctxAt s c
  setCtx s c { x with td := x.td.map fun t => { t with phase := p } }

/-- The phase of a context's teardown or load. -/
def phaseOf (s : State) (c : Nat) : Option Phase := ((ctxAt s c).td).map (·.phase)

/-! ### Loading (R18, R464, R536, R554) -/

/-- The load command, refused until the warm sequence has ended (R564): the context enters Loading, and waits to advance its
generation. -/
def commandLoad (c : Nat) (s : State) : Ans :=
  if s.sys.boot ≠ .running || ctxState s c ≠ .free || !stagingFree s then .error abState
  else
    let s := zeroCounters (clearBlock (setCtxState s c .loading) c) c
    let s := setCtx s c { Ctx.reset with storms := (ctxAt s c).storms }
    .ok (put (startTeardown s c 0) 0x2020 4 1)

/-- LOAD (R18, R536). -/
def execLoad (q : Requester) (c : BitVec 6) (s : State) : Host.Outcome State Fault Refusal :=
  .next (request s q (cb c.toNat 0) 3 [1] (commandLoad c.toNat))

/-- The domains that a candidate needs and that can come On have still to do so (R548, R589). -/
def domainsAwaited (s t : State) (c : Nat) : List Nat :=
  (domainUse t c).filter fun d => !domIsOn s d && !(domAt s d).retired && !(domAt s d).thermal

/-- A loaded image takes its place: its filters are valid, its sessions have an owner, its buckets are full, its caches are
empty and the headers of the remote ones are written, the staging area is free, and the context is Closed (R18, R99, R305, R415). -/
def installImage (s : State) (c : Nat) (l : Loaded) : State :=
  let t := placeFilters l.state c l.image.filters
  let t := (List.range 64).foldl (fun t k =>
    if bit l.image.chim.sessmask.toNat k then setReg t (0x2910 + k) 1 0xFF c else t) t
  let t := setCtx t c { ctxAt t c with td := none }
  let t := (instruments t c).foldl (fun t i =>
    let t := if (dirAt t i).pl = 1 || (dirAt t i).pl = 2 then setCache t i (emptyCache t i 1) else t
    writeHeader t (ctxTag t c) i) t
  let t := setCtxState (put t 0x2020 4 0) c .closed
  noteFlue s (fillBuckets t c)

/-- LOAD_COMPLETE (R18, R536, R548): the container has been read, or could not be; it is checked and written, and the context
enters Closed or returns to Free. While a domain that the image needs is not yet On, the context stays in Loading. -/
def execLoadComplete (c : BitVec 6) (container : Option Bytes) (probePs : List Nat) (s : State) :
    Host.Outcome State Fault Refusal :=
  let c := c.toNat
  .next (
    if ctxState s c ≠ .loading || phaseOf s c ≠ some .reading then s
    else match container with
      | none => loadFail s c 0x0106
      | some bs =>
        match loadImage s c bs probePs with
        | .error cause => loadFail s c cause
        | .ok l =>
          let ds := domainsAwaited s l.state c
          if ds.isEmpty then installImage s c l else requestAllOn (reserveFilters s c l.image.filters) ds)

/-! ### Open, close, recover (R18, R19) -/

/-- The open command. -/
def commandOpen (c : Nat) (s : State) : Ans :=
  if ctxState s c = .closed then .ok (setCtxState s c .opened) else .error abState

/-- OPEN (R18). -/
def execOpenContext (q : Requester) (c : BitVec 6) (s : State) : Host.Outcome State Fault Refusal :=
  .next (request s q (cb c.toNat 0) 3 [2] (commandOpen c.toNat))

/-- The close command. -/
def commandClose (c : Nat) (s : State) : Ans :=
  if ctxState s c = .opened then .ok (fillBuckets (setCtxState s c .closed) c) else .error abState

/-- CLOSE (R19). -/
def execCloseContext (q : Requester) (c : BitVec 6) (s : State) : Host.Outcome State Fault Refusal :=
  .next (request s q (cb c.toNat 0) 3 [3] (commandClose c.toNat))

/-- The recover command. -/
def commandRecover (c : Nat) (s : State) : Ans :=
  if isLoaded s c then .ok (enterRecovering s c 0x0201) else .error abState

/-- RECOVER (R18, R484). -/
def execRecover (q : Requester) (c : BitVec 6) (s : State) : Host.Outcome State Fault Refusal :=
  .next (request s q (cb c.toNat 0) 3 [4] (commandRecover c.toNat))

/-- HANG_DETECT (R482): the hang window of an engine that holds work of the context has passed without progress. -/
def execHangDetect (c : BitVec 6) (engine : BitVec 3) (s : State) : Host.Outcome State Fault Refusal :=
  let e := engine.toNat
  if !engineOk engine then .fault .noSuchUnit
  else .next (if heldItems s c.toNat e = 0 then s else enterRecovering s c.toNat (0x0210 + e))

/-! ### Unloading (R18, R99, R232, R328, R389, R423) -/

/-- The first acts of Unloading: the filters are invalidated, the work of the context is ended as in a teardown, its rows
are not valid and its sessions are Closed; then the generation is to advance. -/
def enterUnloading (s : State) (c : Nat) : State :=
  let s := dropFilters (setCtxState s c .unloading) c
  let s := startTeardown s c 0
  let s := teardownNoSends (abortDownloads s c) c
  let s := fenceRegions (abandonMigrations s c) c
  let s := (instruments s c).foldl (fun s i => setRow s i []) s
  (sessionsOf s c).foldl (fun s k => put s (0x2910 + k) 2 0) s

/-- The unload command: from Recovering, Unloading begins once the dump has been written (R490). -/
def commandUnload (c : Nat) (s : State) : Ans :=
  match ctxState s c with
  | .closed | .opened => .ok (enterUnloading s c)
  | .recovering =>
    if phaseOf s c = some .rewriting then .ok (enterUnloading s c)
    else
      let x := ctxAt s c
      .ok (setCtx s c { x with td := x.td.map fun t => { t with unloadNext := true } })
  | _ => .error abState

/-- UNLOAD (R18, R490). -/
def execUnload (q : Requester) (c : BitVec 6) (s : State) : Host.Outcome State Fault Refusal :=
  .next (request s q (cb c.toNat 0) 3 [5] (commandUnload c.toNat))

/-- UNLOAD_COMPLETE (R18): every resource has gone back to its pool, and the context is Free. -/
def execUnloadComplete (c : BitVec 6) (s : State) : Host.Outcome State Fault Refusal :=
  let c := c.toNat
  .next (
    if ctxState s c ≠ .unloading || phaseOf s c ≠ some .rewriting then s
    else
      let is := instruments s c
      let t := is.foldl (fun s i => setDir s i { Dir.reset with ver := (dirAt s i).ver }) s
      let t := { t with
        store := { t.store with
          skips := t.store.skips.filter (fun x => !is.contains x.1)
          caches := t.store.caches.filter (fun x => !is.contains x.1)
          releasing := t.store.releasing.filter (fun x => !is.contains x.1)
          regions := t.store.regions.map fun x =>
            if regionV x.2 && regionCtx x.2 = c then (x.1, regionStored (x.2 &&& ~~~(1 : BitVec 256))) else x }
        work := { t.work with
          slots := t.work.slots.filter (fun x => !is.contains x.1)
          symbols := t.work.symbols.filter fun x => match x.2 with | some e => e.1 ≠ c | none => false }
        ctr := { t.ctr with requests := t.ctr.requests.filter fun r => tagCtx r.tag ≠ c } }
      let t := (sessionsOf t c).foldl (fun t k => setReg t (0x2910 + k) 1 0xFF 0xFF) (unloadHearth t c)
      let t := setCtx t c { Ctx.reset with storms := (ctxAt t c).storms }
      noteFlue s (setCtxState t c .free))

/-! ### The generation and the purge (R15–R17, R484, R485) -/

/-- Events of a context that Opal has not published are closed by sequence updates, its steps are discarded, and its
rollouts Abandoned (R305, R485). -/
def purgeOpal (s : State) (c : Nat) : State :=
  let s := s.work.msgs.foldl (fun s x =>
    match x.2 with
    | none => s
    | some m =>
      match m.seq with
      | none => s
      | some q => if m.ctx = c && !m.issued then skipEvent (setMsg s x.1 { m with issued := true }) (m.instr.getD 0) q else s) s
  ((allSteps s).filter fun x => x.2.ctx = c).foldl (fun s x =>
    progress (skipEvent (setStep s x.1 none) x.2.instr x.2.seq) c 3) s

/-- Every engine purges what it holds of a context (R485): the Hearth is emptied and its swap ended (R389), the Chimney's
intake is emptied too, and Draining ensembles become Loaded. -/
def purgeEngines (s : State) (c : Nat) : State :=
  let s := noteFlue (purgeOpal s c) (purgeHearth (purgeOpal s c) c)
  settleEns { s with chim := { s.chim with intake := tabSet [] s.chim.intake c [] } } c

/-- GENERATION_ADVANCE (R15, R17, R484): unless the Flue still lists a request under it, the next generation is in force. A load
then reads its image; a teardown purges. -/
def execGenerationAdvance (c : BitVec 6) (s : State) : Host.Outcome State Fault Refusal :=
  let c := c.toNat
  let g := (ctxGen s c + 1) % 256
  .next (
    if phaseOf s c ≠ some .awaitGen || flueLists s (BitVec.ofNat 14 (64 * g + c)) then s
    else if ctxState s c = .loading then setPhase (put s (cb c 0) 2 g) c .reading
    else
      let s := put (abandonRollouts s c fun _ => true) (cb c 0) 2 g
      setPhase (purgeEngines s c) c .purging)

/-- Step 6 of R484: what recovery rewrites from the image. -/
def rewriteContext (s : State) (c : Nat) : State :=
  let t := noteFlue s (recoverHearth s c)
  let t := [(3, 2), (4, 2), (5, 2), (7, 0x20)].foldl (fun t x => put t (cb c x.1) x.2 0) t
  let t := (List.range 16).foldl (fun t k =>
    let x := ensAt t c k
    if x.damaged && !misplaced t x then setEns t c k { x with damaged := false } else t) t
  let x := ctxAt t c
  setPhase (setCtx t c { x with damaged := [], broken := x.broken.filter fun g => !domIsOn t (14 + g) }) c .rewriting

/-- PURGE_COMPLETE (R468, R484, R490): every engine has reported. Increments of the old generation are not performed any
more. A recovering context has its dump written and is rewritten, or goes on into Unloading. -/
def execPurgeComplete (c : BitVec 6) (s : State) : Host.Outcome State Fault Refusal :=
  let c := c.toNat
  .next (
    match (ctxAt s c).td with
    | none => s
    | some t =>
      if t.phase ≠ .purging || t.escalations.any (fun e => e.busy) then s
      else
        let s := { s with ctr := { s.ctr with requests := s.ctr.requests.filter fun r =>
          !(tagCtx r.tag = c && !tagCurrent s r.tag) } }
        if ctxState s c = .recovering then
          let s := writeContextDump s c t
          if t.unloadNext then enterUnloading s c else rewriteContext s c
        else setPhase s c .rewriting)

/-! ### The end of a recovery (R484 step 7, R489) -/

/-- Whether the recovery that ends is the fourth within the storm window. -/
def inStorm (s : State) (c : Nat) : Bool :=
  let w := val s 0x2C10 2
  let l := (ctxAt s c).storms
  w ≠ 0 && (match l.head? with
    | none => false
    | some e => decide (4 ≤ (l.filter fun x => e - x ≤ ns (1000000 * (w : Int))).length))

/-- RECOVERY_COMPLETE (R484 step 7, R489). -/
def execRecoveryComplete (c : BitVec 6) (s : State) : Host.Outcome State Fault Refusal :=
  let c := c.toNat
  .next (
    match (ctxAt s c).td with
    | none => s
    | some t =>
      if ctxState s c ≠ .recovering || t.phase ≠ .rewriting then s
      else
        let took := ((elapsed s - t.began) / ns 1).toNat
        let s := put (setCtxState s c .closed) (cb c 0x0C) 0x0E (took % 2 ^ 32)
        let s := fillBuckets (sootCtx s c 0x2C02 took t.dump) c
        let s := setCtx s c { ctxAt s c with td := none, live := val s (cb c 2) 0x20 = 1 }
        let s := if allCtxs.any (fun d => ctxState s d = .recovering) || !s.mgmt.conditions.contains 0xFF01 then s
          else emcy s 0 (toLe 2 0xFF01)
        if inStorm s c then
          setCtx (sootCtx s c 0x2C07 4 (val s 0x2C10 2)) c { ctxAt s c with storms := [] }
        else if val s (cb c 0) 5 = 1 then setCtxState s c .opened
        else s)

end Sys2Proof.Machine
end

