-- ==== Sys2Proof/Machine/Fabric.lean ====
section
/-! DEFINITION. The commands of the Hearth's configurations (12): load, free, swaps, deadlock and spill, sampling, and the
retirement of a site. -/

namespace Sys2Proof.Machine

/-! ### Configuration load and free (R384, R399, R401) -/

/-- Whether a context takes a fragment or command for its configurations. -/
def hearthOpen (s : State) (c : Nat) : Bool := isLoaded s c

/-- The rules of a configuration fragment for slot `k`. -/
def applyConfigLoad (c k : Nat) (data : Bytes) (probes : List Nat) (s : State) : Ans :=
  match (ctxAt s c).image with
  | none => .error abState
  | some im =>
    if !hearthOpen s c || (hslot s k).isSome then .error abState
    else match fragmentBody s 4 c data with
      | .error a => .error a
      | .ok body =>
        match readConfig body with
        | some (some g) =>
          if !configOk s (ctxAt s c).live (counterRange s c) g probes || epochShared s c g then .error abRange
          else match proveConfig 8 0 g with
            | none => .error abRange
            | some g =>
              if hearthAboveLimit s c im g then .error abRange
              else if !configFits s g then .error abMemory
              else .ok (setHslot s k (some { state := .stored, owner := c, cfg := some g, fromImage := false }))
        | _ => .error abRange

/-- CONFIGURATION_LOAD (R384). -/
def execConfigurationLoad (q : Requester) (c : BitVec 6) (container : Bytes) (probePs : List Nat) (s : State) :
    Host.Outcome State Fault Refusal :=
  .next (request s q (cb c.toNat 7) 4 container
    (stagedWrite (applyConfigLoad c.toNat (selected s q (cb c.toNat 7) 3) container probePs)))

/-- Whether slot `k` is a Stored one of the context. -/
def storedOwn (s : State) (c k : Nat) : Bool :=
  match hslot s k with
  | none => false
  | some h => h.owner = c && h.state = .stored

/-- Whether a swap to slot `k` is allowed (R385). -/
def swapAllowed (s : State) (c k : Nat) : Bool :=
  hearthOpen s c && storedOwn s c k && (swapOf s c).isNone &&
  match (hslot s k).bind (·.cfg) with
  | none => false
  | some g => groupsOn s g && (match configIn s c .active with | none => true | some x => groupsOn s x.2) && !configClash s c g
      && (configSites g).all (fun x => !columnUnusable s (siteCol x))
      && g.spreads.all (fun e => (chanAt s (siteChannel e.site)).state ≠ .retired)

/-- The rules of CB+0x07:05 on the selected slot. -/
def writeConfigCommand (c k : Nat) (data : Bytes) (s : State) : Ans :=
  match leNat data with
  | 1 => if hearthOpen s c && storedOwn s c k then .ok (setHslot s k none) else .error abState
  | 2 => if swapAllowed s c k then .ok (noteFlue s (startSwap s c (some k) true)) else .error abState
  | 3 => if swapAllowed s c k then .ok (noteFlue s (startSwap s c (some k) false)) else .error abState
  | _ => .error abRange

/-- A write of a configuration command. -/
def configCommand (q : Requester) (c : BitVec 6) (v : Nat) (s : State) : State :=
  request s q (cb c.toNat 7) 5 [BitVec.ofNat 8 v] (writeConfigCommand c.toNat (selected s q (cb c.toNat 7) 3) [BitVec.ofNat 8 v])

/-- CONFIGURATION_FREE. -/
def execConfigurationFree (q : Requester) (c : BitVec 6) (s : State) : Host.Outcome State Fault Refusal :=
  .next (configCommand q c 1 s)

/-- DRAIN_SWAP (R385). -/
def execDrainSwap (q : Requester) (c : BitVec 6) (s : State) : Host.Outcome State Fault Refusal :=
  .next (configCommand q c 2 s)

/-- CUT_SWAP (R385). -/
def execCutSwap (q : Requester) (c : BitVec 6) (s : State) : Host.Outcome State Fault Refusal :=
  .next (configCommand q c 3 s)

/-- Whether the old configuration of a drain swap is empty (R387). -/
def drained (s : State) (c : Nat) : Bool :=
  let r := (ctxAt s c).run
  allTokens r = 0 && (r.fins.all fun x => x.2.isEmpty)

/-- SWAP_DRAIN_END (R387): the configuration is empty, or the drain timeout has expired. -/
def execSwapDrainEnd (c : BitVec 6) (s : State) : Host.Outcome State Fault Refusal :=
  .next (
    match swapOf s c.toNat with
    | none => s
    | some w =>
      if w.switching || !isLoaded s c.toNat then s
      else beginSwitch s c.toNat { w with timedOut := !drained s c.toNat })

/-- SWAP_SWITCH_DONE (R387): the new configuration is written and becomes Active. -/
def execSwapSwitchDone (c : BitVec 6) (s : State) : Host.Outcome State Fault Refusal :=
  .next (
    match swapOf s c.toNat with
    | none => s
    | some w => if w.switching && isLoaded s c.toNat then noteFlue s (endSwap s c.toNat w) else s)

/-! ### Deadlock and spill (R390–R393) -/

/-- Whether an external wait is pending in a configuration (R390). -/
def externalWait (s : State) (c : Nat) (g : HConfig) : Bool :=
  let r := (ctxAt s c).run
  let has (site k : Nat) : Bool := !(queueAt r site k).isEmpty
  g.units.any fun u =>
    u.2.kind = 5 &&
    (match u.2.op with
      | 5 => has u.1 0 && (match (queueAt r u.1 1).head? with
          | some b => !decide (b.data ≤ counterAt s u.2.sel)
          | none => isImm u.2 1 && !decide (u.2.imm ≤ counterAt s u.2.sel))
      | 3 => has u.1 0 && (match spreadAt g u.1 with | none => false | some e => e.cred - tabGet 0 r.credits u.1 = 0)
      | 4 => (match siteProgram g u.1 with | none => false | some k => !(tabGet [] r.open_ k).isEmpty)
      | _ => false)

/-- Whether an input of a unit has a token, or is immediate. -/
def inputReady (r : HRun) (site : Nat) (u : UnitEntry) (k : Nat) : Bool := isImm u k || !(queueAt r site k).isEmpty

/-- The P bit of the token at the head of C, once it is there. -/
def control (r : HRun) (site : Nat) : Option Bool := (queueAt r site 2).head?.map (·.p)

/-- Whether the next element of an STB ends its block or run (R363). -/
def blockEnds (r : HRun) (site : Nat) (u : UnitEntry) : Bool :=
  let n := tabGet 0 r.runAt site
  n % 32 = 31 || decide (u.count ≤ n)

/-- The inputs that the next firing of a unit consumes (R343), of an LDST unit those of the side of an input: a MERGE consumes
C and the input that C selects, an STB consumes B only where a block ends. -/
def nextInputs (r : HRun) (site inp : Nat) (u : UnitEntry) : List Nat :=
  match u.kind, u.op with
  | 2, 5 => 2 :: (match control r site with | none => [] | some true => [0] | some false => [1])
  | 4, 1 => if inp = 0 then [0] else [1, 2]
  | 4, 4 => if blockEnds r site u then [1, 2] else [2]
  | _, _ => match opInputs u.kind u.op with | none => [] | some x => x.1

/-- Whether a unit has what its next firing consumes, and that firing writes output `out` (R342, R343). -/
def wantsToWrite (r : HRun) (site out : Nat) (u : UnitEntry) : Bool :=
  (nextInputs r site (if out = 0 then 0 else 1) u).all (inputReady r site u) &&
  match u.kind, u.op with
  | 1, 4 => tabGet 0 r.taken site = u.count
  | 1, 5 => tabGet 0 r.taken site = u.count
  | 2, 4 => (control r site).getD true = (out = 0)
  | 4, 4 => blockEnds r site u
  | 5, 1 => !(tabGet [] r.fins site).isEmpty
  | 5, 4 => !(tabGet [] r.fli site).isEmpty
  | k, op => (opInputs k op).isSome

/-- Whether a unit lacks a token on an input that its next firing consumes other than `inp`. -/
def lacksOther (r : HRun) (site inp : Nat) (u : UnitEntry) : Bool :=
  ((nextInputs r site inp u).filter (· ≠ inp)).any fun k => !inputReady r site u k

/-- The blocking full queues of a configuration (R392). -/
def blockingQueues (r : HRun) (quota : Nat) (g : HConfig) : List (Nat × Nat) :=
  g.circuits.filterMap fun c =>
    match unitAt g c.src, unitAt g c.dst with
    | some a, some b =>
      if !queueRoom g r quota c.dst c.inp && wantsToWrite r c.src c.out a && lacksOther r c.dst c.inp b
      then some (c.dst, c.inp) else none
    | _, _ => none

/-- Spills one queue: the tokens behind its head move to its spill list (R392). -/
def spillQueue (r : HRun) (k : Nat × Nat) : HRun :=
  match queueAt r k.1 k.2 with
  | [] => r
  | t :: rest =>
    { r with queues := tabSet [] r.queues (qkey k.1 k.2) [t],
             spill := tabSet [] r.spill (qkey k.1 k.2) (rest ++ spillAt r k.1 k.2) }

/-- A deadlock that is a hang: Recovering with the cause "deadlock" (R391, R393). -/
def deadlockHang (s : State) (c : Nat) : State := enterRecovering (bump32 s (cb c 7) 0xE) c 0x0204

/-- Whether a queue that holds tokens belongs to a program with BOUND set (R391). -/
def boundQueueHeld (r : HRun) (g : HConfig) : Bool :=
  (List.range 8).any fun k =>
    (match g.progs[k]? with | some p => p.valid && p.bound | none => false) &&
    (programSites g k).any fun x => [0, 1, 2].any fun i => !(queueAt r x i).isEmpty

/-- DEADLOCK_DETECT (R390): the deadlock window has elapsed without a firing. -/
def execDeadlockDetect (c : BitVec 6) (s : State) : Host.Outcome State Fault Refusal :=
  .next (
    match configIn s c.toNat .active with
    | none => s
    | some (_, g) =>
      let r := (ctxAt s c.toNat).run
      if !isLoaded s c.toNat || tokenCount r = 0 || externalWait s c.toNat g then s
      else if boundQueueHeld r g then deadlockHang s c.toNat
      else
        let quota := val s (cb c.toNat 7) 0xB
        let qs := (blockingQueues r quota g).eraseDups
        let r' := qs.foldl spillQueue r
        if qs.isEmpty || quota < spillCount r' then deadlockHang s c.toNat
        else bumpBy 64 (setRun s c.toNat r') (cb c.toNat 7) 0xC qs.length)

/-! ### Sampling (R394) -/

/-- Bin of a depth. -/
def depthBin (n : Nat) : Nat :=
  if n ≤ 2 then n else if n ≤ 4 then 3 else if n ≤ 6 then 4 else if n = 7 then 5 else if n = 8 then 6 else 7

/-- Key of a bin. -/
def binKey (site inp b : Nat) : Nat := 8 * qkey site inp + b

/-- One input's depth enters its bin, saturating. -/
def sampleInput (r : HRun) (site inp : Nat) : HRun :=
  let k := binKey site inp (depthBin ((queueAt r site inp).length + (spillAt r site inp).length))
  { r with bins := tabSet 0 r.bins k (min 0xFFFFFFFF (tabGet 0 r.bins k + 1)) }

/-- A snapshot of one configuration. -/
def sampleConfig (g : HConfig) (r : HRun) : HRun :=
  g.units.foldl (fun r u => [0, 1, 2].foldl (fun r k => sampleInput r u.1 k) r) r

/-- QUEUE_SAMPLE: nothing while the sample interval is 0 (R402). -/
def execQueueSample (s : State) : Host.Outcome State Fault Refusal :=
  .next (
    if val s 0x2800 2 = 0 then s
    else
      let s := allCtxs.foldl (fun s c =>
        match configIn s c .active with
        | none => s
        | some (_, g) => setRun s c (sampleConfig g (ctxAt s c).run)) s
      bump s 0x2800 3)

/-- The rules of CB+0x07:12. -/
def writeHistClear (c : Nat) (data : Bytes) (s : State) : Ans :=
  if leNat data = 1 then .ok (setRun s c { (ctxAt s c).run with bins := [] }) else .error abRange

/-- HISTOGRAM_CLEAR. -/
def execHistogramClear (q : Requester) (c : BitVec 6) (value : BitVec 8) (s : State) : Host.Outcome State Fault Refusal :=
  .next (request s q (cb c.toNat 7) 0x12 [value] (writeHistClear c.toNat [value]))

/-! ### Site retirement (R395, R396) -/

/-- Logical column of a group that stands on its spare (0x2800:08); none while the spare is free. The register holds
column + 1 in byte g, 0 for none. -/
def spareColumn (s : State) (g : Nat) : Option Nat :=
  let v := reg s 0x2800 8 0 / 256 ^ g % 256
  if v = 0 then none else some (v - 1)

/-- Moves a logical column of a group onto its spare. -/
def takeSpare (s : State) (g col : Nat) : State := setReg s 0x2800 8 0 (reg s 0x2800 8 0 + (col + 1) * 256 ^ g)

/-- Each other Active configuration that uses a remapped column is rewritten by a drain swap into its own slot (R395). -/
def rewriteColumn (s : State) (col : Nat) : State :=
  s.grid.slots.foldl (fun s x =>
    match x.2 with
    | none => s
    | some h =>
      match h.cfg with
      | none => s
      | some g =>
        if h.state = .active && isLoaded s h.owner && (swapOf s h.owner).isNone && usesColumn g col
        then startSwap s h.owner (some x.1) true else s) s

/-- A site is retired (R395, R396). One retired before whose column stands on the spare fails there for good: the column
becomes unusable. -/
def retireSite (s : State) (x : Nat) : State :=
  if s.grid.retired.contains x && columnUnusable s (siteCol x) then s
  else
    let grp := siteGroup x
    let s0 := s
    let s := { s with grid := { s.grid with retired := s.grid.retired ++ [x] } }
    let s := bump32 s 0x2800 0xA
    let s := noteRetired s 1 x (s.grid.retired.filter fun y => siteGroup y = grp).length
    let s := ((heldConfigs s).filter fun h => (unitAt h.2 x).isSome).foldl (fun s h => enterRecovering s h.1 0x0206) s
    if (spareColumn s grp).isNone then
      rewriteColumn (soot (takeSpare s grp (siteCol x % 8)) 0x2801 none x grp) (siteCol x)
    else noteFlue s0 (loseColumn (soot s 0x2801 none (x + 65536) grp) (siteCol x))

/-- SITE_RETIRE (R395, R396). -/
def execSiteRetire (site : BitVec 12) (s : State) : Host.Outcome State Fault Refusal :=
  if !siteOk site.toNat then .fault .noSuchUnit else .next (retireSite s site.toNat)

end Sys2Proof.Machine
end

