-- ==== Sys2Proof/Machine/Opal.lean ====
section
/-! DEFINITION. Opal's commands (09): events and steps, slot publication, weights and lanes, and rollouts. -/

namespace Sys2Proof.Machine

/-! ### Events and steps (R287–R294) -/

/-- Books a step for an event. -/
def bookStep (s : State) (x : OStep) : State :=
  let k := s.store.nextStep
  let s := setStep { s with store := { s.store with nextStep := k + 1 } } k (some x)
  sampleNow s x.ctx 3 1 0 x.instr x.seq.toNat []

/-- The step of an event before it starts. -/
def newStep (x : Msg) (q : BitVec 32) : OStep :=
  { ctx := x.ctx, tag := x.tag, instr := x.instr.getD 0, seq := q, own := none, lane := 0, place := 0, ver := 0, start := 0,
    deadline := none, event := x.event, running := false, weights := none, wver := 0, next := 0, valid := [], bad := [], window := [],
    vals := [], rows := [], nanRow := false, flags := 0, flushed := 0 }

/-- The placement version that admission records for a step of an instrument: that of the destination once a migration
has booked its lock (R322, R325). -/
def admittedVer (s : State) (i : Nat) : BitVec 16 :=
  (dirAt s i).ver + (if placement s i = (dirAt s i).pl then 0 else 1)

/-- OPAL_EVENT_ISSUE (R288, R294): the event of a message is handed to Opal and becomes its program's own step, a lagged
step, or a skip. -/
def execOpalEventIssue (message : Nat) (s : State) : Host.Outcome State Fault Refusal :=
  .next (
    match msgAt s message with
    | none => s
    | some x =>
      match x.seq with
      | none => s
      | some q =>
        if !x.accessed || x.issued then s
        else
          let s := setMsg s message { x with issued := true }
          let i := x.instr.getD 0
          let y := newStep x q
          if x.kind = .s && x.fate = .admitted then
            if (replicaSet s x.ctx).isEmpty then
              let s := skipEvent s i q
              settleForks (if openMsg x then settleEns (deliver (bump32 s (cb x.ctx 5) 0x12) message) x.ctx else s) x.ctx i
            else if !openMsg x then skipEvent s i q
            else bookStep s { y with own := some message, lane := x.lane, place := x.place, ver := x.ver,
                                     start := x.stepStart, deadline := x.deadline }
          else if !isLoaded s x.ctx || !tagCurrent s x.tag then skipEvent s i q
          else
            match laggedTests s x (x.tdp.getD 0) with
            | none => skipEvent s i q
            | some (lane, start, pub, due) =>
              bookStep (bookLagged s i lane pub)
                { y with lane := lane, place := placement s i, ver := admittedVer s i, start := start, deadline := due })

/-- Whether a booked step may start: it is the first of its instrument's steps, no step runs on the instrument, the banks or Flue
halves of its placement are On, and its region is not fenced. From the booking of a migration's lock only what was admitted on
the source starts, and nothing during the lock (R325). -/
def mayBegin (s : State) (x : OStep) : Bool :=
  (allSteps s).all (fun y => y.2.instr ≠ x.instr || (!y.2.running && !serialLess y.2.seq x.seq))
    && (match migAt s x.instr with
      | some g => g.phase = .copying || (g.phase = .locking && x.ver = (dirAt s x.instr).ver)
      | none => true)
    && (storeDomains s x.place).all (domIsOn s) && regionServes s x.instr x.place

/-- The lane a step runs on: the booked one, or where that is no longer usable the earliest-free one (R290, R303). -/
def laneOf (s : State) (x : OStep) : Option Nat :=
  let groups := replicaSet s x.ctx
  if (usableLanes s groups).contains x.lane then some x.lane else freeLane s groups

/-- The rows that a running step reads, by layer and position. -/
def stepRows (m : OpalImage) (x : OStep) : List (Nat × Nat) :=
  (List.range m.nlayer).flatMap fun l => (stepPositions m x l).map (l, ·)

/-- The requests of a remote step: the header and the rows of its window are read, and the intent is written (R284). -/
def stepTraffic (s : State) (k : Nat) (x : OStep) (m : OpalImage) : State :=
  let d := dirAt s x.instr
  if x.place ≠ 2 || m.nlayer = 0 then s
  else
    let s := windowRead s x.tag d.region d.addr.toNat 256 (.mantelRead k none)
    let s := writeHeader s x.tag x.instr
    (stepRows m x).foldl (fun s r =>
      windowRead s x.tag d.region (d.addr.toNat + rowOffset m r.1 r.2) (rowBytes m) (.mantelRead k (some r))) s

/-- A step as it runs: the header that it read stands in it, with the rows of its window and the weights of now. -/
def runningStep (s : State) (x : OStep) (m : OpalImage) (lane : Nat) (c : Cache) : OStep :=
  { x with running := true, lane := lane, weights := some m, wver := (ctxAt s x.ctx).switches, next := c.next, valid := c.valid,
           window := c.rows }

/-- The cache as a step's header read finds it: at sequence number 1 the Stoker has reset it (R286). -/
def headerRead (s : State) (x : OStep) : Cache :=
  let c := cacheAt s x.instr
  if x.seq = 1 && c.next ≠ 1 then emptyCache s x.instr 1 else c

/-- Starts step `k` on a lane: the header is read, the intent written, the window read and the step computed, without the rows that
cannot be read. -/
def startStep (s : State) (k : Nat) (x : OStep) (m : OpalImage) (lane : Nat) (lost : List (Nat × Nat)) : State :=
  let c := headerRead s x
  let c' : Cache := { (if hasRing m then intentCache m c x.seq else { c with next := x.seq }) with tag := x.tag }
  let y := computeStep s (runningStep s x m lane c)
  let s := stepTraffic (setCache (writeLocal (setStep s k (some y)) x.instr 0 192) x.instr c') k y m
  lost.foldl (fun s r => rowFault s k r) s

/-- Begins step `k`: what its reads of a local cache report decides whether it fails with its header, or runs without some rows
(R302, R318). -/
def beginStep (s : State) (k : Nat) (x : OStep) (m : OpalImage) (lane : Nat) (f : LineFaults) : State :=
  if x.place ≠ 1 || m.nlayer = 0 then startStep s k x m lane []
  else
    let rows := stepRows m (runningStep s x m lane (headerRead s x))
    let (hit, s) := readLocal s x.instr m rows f
    if hit.any (· < 4) then headerFault s k
    else startStep s k x m lane (rows.filter fun r => hit.any fun n => rowTouches m n r)

/-- OPAL_STEP_START (R284): a booked step starts on its lane. One whose tag is stale is discarded (R16), as is one whose
placement version differs from the directory's (R322). `bad` and `corrected` are what the banks report of a local cache (R318). -/
def execOpalStepStart (step : Nat) (bad : List Nat) (corrected : Nat) (s : State) : Host.Outcome State Fault Refusal :=
  .next (
    match stepAt s step with
    | none => s
    | some x =>
      if x.running then s
      else if !tagCurrent s x.tag then staleDrop (skipEvent (setStep s step none) x.instr x.seq) x.tag
      else if !mayBegin s x then s
      else if x.place ≠ 0 && (dirAt s x.instr).ver ≠ x.ver then discardStep s step (cb x.ctx 6) 0x0E
      else
        match laneOf s x, (ctxAt s x.ctx).weights with
        | some lane, some m =>
          if (allSteps s).any fun y => y.2.running && y.2.lane = lane then s
          else beginStep s step x m lane ⟨bad, corrected⟩
        | _, _ => discardStep s step (cb x.ctx 5) 0x12)

/-- The commit of a step, and the requests that carry it where the cache is remote (R284). -/
def commitStep (s : State) (x : OStep) (m : OpalImage) : State :=
  let i := x.instr
  let d := dirAt s i
  let c := cacheAt s i
  let p := x.seq.toNat % ringLen m
  let s := setCache s i (if hasRing m then commitCache m c x else { c with next := x.seq + 1, tag := x.tag })
  let s := if hasRing m && x.nanRow then bump s (cb x.ctx 5) 7 else s
  if m.nlayer = 0 then s
  else if x.place ≠ 2 then
    if !hasRing m then writeLocal s i 0 192
    else (List.range m.nlayer).foldl (fun s l => writeLocal s i (rowOffset m l p) (rowBytes m)) (writeLocal s i 0 192)
  else
    let s := if !hasRing m then s else (x.rows.zipIdx).foldl (fun s r =>
      windowWrite s x.tag d.region (d.addr.toNat + rowOffset m r.2 p) (rowData r.1) (.mantelRow i p)) s
    writeHeader s x.tag i

/-- Fills the features of an S message from its own step's publication (R235). -/
def fillOwn (s : State) (m : Nat) (slot : Slot) : State :=
  match msgAt s m with
  | none => s
  | some x => deliverFeatures (setMsg s m { x with awaitStep := false }) m slot 0

/-- SLOT_PUBLISH (R284, R291, R292): a running step completes; its commit is written and the slot is published, once every
earlier event of the instrument has reached the slot and every read of the step has been answered. It waits while the domain of
the slot table is not On (R304) or its region is fenced (R327), and is discarded where its placement version has changed
(R322). -/
def execSlotPublish (step : Nat) (s : State) : Host.Outcome State Fault Refusal :=
  .next (
    match stepAt s step with
    | none => s
    | some x =>
      if !x.running || readsOpen s step || !isNext s x.instr x.seq || !domIsOn s 9 then s
      else if !tagCurrent s x.tag then staleDrop (skipEvent (setStep s step none) x.instr x.seq) x.tag
      else if x.place ≠ 0 && (dirAt s x.instr).ver ≠ x.ver then discardStep s step (cb x.ctx 6) 0x0E
      else if !regionServes s x.instr x.place then s
      else
        match x.weights with
        | none => s
        | some m =>
          let s := commitStep (setStep s step none) x m
          let slot : Slot := { vals := x.vals, seq := x.seq, stamp := (baseAt s (admBase s)).n, old := false, published := true }
          let s := setSlot s x.instr slot
          let s := bump (bump s (cb x.ctx 5) 3) 0x2600 4
          let s := bumpBy 64 (stick s (cb x.ctx 5) 2 x.flags) (cb x.ctx 5) 6 x.flushed
          let late := match x.own, x.deadline with | none, some d => decide (d < admNow s) | _, _ => false
          let s := if late then sootCtx (bump s (cb x.ctx 5) 5) x.ctx 0x2601 x.instr x.seq.toNat else s
          let s := sampleNow (progress s x.ctx 3) x.ctx 3 2 0 x.instr x.seq.toNat ((x.vals.take 8).flatMap fun v => toLe 2 v.toNat)
          let s := match x.own with | some m => fillOwn s m slot | none => s
          settleForks s x.ctx x.instr)

/-- SEQUENCE_UPDATE (R293, R294): the earliest skipped event of an instrument advances its slot's sequence number, once
every earlier event has reached the slot, and while the domain of the slot table is On (R304). -/
def execSequenceUpdate (instrument : BitVec 14) (s : State) : Host.Outcome State Fault Refusal :=
  let i := instrument.toNat
  .next (
    match (skipsOf s i).find? fun q => isNext s i q && domIsOn s 9, ownerOf s i with
    | some q, some c =>
      let s := { s with store := { s.store with skips := tabSet [] s.store.skips i ((skipsOf s i).erase q) } }
      let s := setSlot s i { slotAt s i with seq := q }
      let x := cacheAt s i
      let s := if q = 1 && x.next ≠ 1 then setCache s i (emptyCache s i 1) else s
      progress (bump s (cb c 5) 4) c 3
    | _, _ => s)

/-! ### Weights and lanes (R301–R303) -/

/-- Weight load into the shadow copy: the checks of R301 in the order of its table. -/
def applyWeightLoad (c : Nat) (data : Bytes) (s : State) : Ans :=
  let x := ctxAt s c
  if !mayChange s c || x.shadow.isSome then .error abState
  else match fragmentBody s 3 c data with
    | .error a => .error a
    | .ok body =>
      match readOpal body, x.weights, x.image with
      | some (some m), some cur, some im =>
        if m.header ≠ cur.header || !opalTensorOk m im.feat then .error abRange
        else if !weightsFit s c m then .error abMemory
        else .ok (setCtx s c { x with shadow := some m })
      | _, _, _ => .error abRange

/-- WEIGHT_LOAD (R301). -/
def execWeightLoad (q : Requester) (c : BitVec 6) (container : Bytes) (s : State) : Host.Outcome State Fault Refusal :=
  .next (request s q (cb c.toNat 5) 0x0A container (stagedWrite (applyWeightLoad c.toNat container)))

/-- The rules of CB+0x05:0B (R301). -/
def writeWeightCommand (c : Nat) (data : Bytes) (s : State) : Ans :=
  let x := ctxAt s c
  match x.shadow with
  | none => .error abState
  | some m =>
    if !mayChange s c then .error abState
    else if leNat data = 1 then .ok (setCtx s c { x with weights := some m, shadow := none, switches := x.switches + 1 })
    else .ok (setCtx s c { x with shadow := none })

/-- WEIGHT_SWITCH (R301). -/
def execWeightSwitch (q : Requester) (c : BitVec 6) (s : State) : Host.Outcome State Fault Refusal :=
  .next (request s q (cb c.toNat 5) 0x0B [1] (writeWeightCommand c.toNat [1]))

/-- WEIGHT_DISCARD (R301). -/
def execWeightDiscard (q : Requester) (c : BitVec 6) (s : State) : Host.Outcome State Fault Refusal :=
  .next (request s q (cb c.toNat 5) 0x0B [2] (writeWeightCommand c.toNat [2]))

/-- The context and lane of the work that a lane is doing: a running step, or a rollout that has run on a lane. -/
def workLane (s : State) (w : OpalWork) : Option (Nat × Nat) :=
  match w with
  | .step k =>
    match stepAt s k with
    | none => none
    | some x => if x.running then some (x.ctx, x.lane) else none
  | .rollout c k =>
    let r := rolloutAt s c.toNat k.toNat
    if r.state = .running then r.lane.map (c.toNat, ·) else none

/-- The work of a lane is discarded by a fault and counted (R298, R302): a step as such, a rollout as Abandoned. -/
def discardWork (s : State) (w : OpalWork) : State :=
  match w with
  | .step k =>
    match stepAt s k with
    | none => s
    | some x => discardStep s k (cb x.ctx 5) 0x12
  | .rollout c k => bump32 (endRollout s c.toNat k.toNat .abandoned) (cb c.toNat 5) 0x12

/-- WEIGHT_ERROR (R298, R302, R495): a corrected error is counted. An uncorrectable one or a residue mismatch discards the step,
and a rollout's step with its rollout. A weight error takes its group out of the context's replica set until the copy is
rewritten; a residue mismatch counts against the lane. -/
def execWeightError (work : OpalWork) (kind : ErrKind) (s : State) : Host.Outcome State Fault Refusal :=
  .next (
    match workLane s work with
    | none => s
    | some (c, lane) =>
      match kind with
      | .corrected => bump s 0x2600 5
      | .uncorrectable =>
        let s := bump (discardWork s work) 0x2600 6
        let k := ctxAt s c
        if k.broken.contains (lane / 4) then s else setCtx s c { k with broken := k.broken ++ [lane / 4] }
      | .residue =>
        let r := strike (bump (discardWork s work) 0x2600 6) 3 lane
        if r.1 then retireLane r.2 lane else r.2)

/-- WEIGHT_REWRITE_DONE (R302): the group rejoins the replica set. -/
def execWeightRewriteDone (c : BitVec 6) (group : BitVec 2) (s : State) : Host.Outcome State Fault Refusal :=
  let x := ctxAt s c.toNat
  .next (setCtx s c.toNat { x with broken := x.broken.filter (· != group.toNat) })

/-- LANE_RETIRE (R303). -/
def execLaneRetire (lane : BitVec 4) (s : State) : Host.Outcome State Fault Refusal := .next (retireLane s lane.toNat)

/-! ### Rollouts (R295–R298) -/

/-- The rules of CB+0x05:0C (R295, R296): length, then range and reserved fields, then state. The fork is booked on the
instrument like a step of zero length. -/
def writeRollout (c : Nat) (data : Bytes) (s : State) : Ans :=
  let i := leAt data 0 2
  let k := (byteAt data 2).toNat
  let n := leAt data 4 2
  let kctr := leAt data 6 2
  let r := counterRange s c
  let nscr := match modelOf s c with | none => 0 | some m => m.nscr
  if data.length < 16 then .error abShort
  else if 16 < data.length then .error abLong
  else if 16384 ≤ i || !inInstruments s c i || byteAt data 3 ≠ 0 || 256 < n || nscr ≤ k || !zeroAt data 8 8
      || !(kctr = 0xFFFF || (r.1 ≤ kctr && kctr < r.1 + r.2)) then .error abRange
  else if !mayChange s c || (rolloutAt s c k).state ≠ .idle || (rolloutLanes s c).isEmpty then .error abState
  else
    let l := s.work.ledger
    let s := setLedger s { l with instrs := tabSet 0 l.instrs i (max (admNow s) (tabGet 0 l.instrs i)) }
    let s := setRollout s c k { Rollout.reset with
      state := .running, instr := i, steps := n, kctr := kctr, waits := some (forkBehind s i) }
    let s := settleForks s c i
    .ok (if n = 0 then endRollout s c k .done else s)

/-- ROLLOUT_REQUEST (R295, R296). -/
def execRolloutRequest (q : Requester) (c : BitVec 6) (bytes : Bytes) (s : State) : Host.Outcome State Fault Refusal :=
  .next (request s q (cb c.toNat 5) 0x0C bytes (writeRollout c.toNat bytes))

/-- The synthetic event of a rollout step from the previous output (R296). -/
def rolloutEvent (m : OpalImage) (es : List (Nat × Nat)) (prev : List (BitVec 16)) : List (BitVec 32 × Bool) :=
  es.zipIdx.map fun e =>
    let k := (byteAt m.feedback e.2).toNat
    let out := e.1.1
    if k = 0xFF then (missingElem out, true)
    else
      let v := prev.getD k 0
      match out with
      | 0 =>
        match toInt (dec16 v) with
        | some n => (BitVec.ofNat 32 (min n.toNat e.1.2), false)
        | none =>
          let top := match dec16 v with | .inf false => e.1.2 | _ => 0
          (BitVec.ofNat 32 top, false)
      | 1 => (v.setWidth 32, false)
      | _ => ((widen v).1, false)

/-- Positions of the real rows of rollout step `r`, by the recorded bits, in sequence order (R296). -/
def rolloutPositions (m : OpalImage) (o : Rollout) (r : Nat) : List Nat :=
  let sf := o.sf.toNat
  let lo := max 1 (max (sf + r - m.window) (sf + 1 - ringLen m))
  ((List.range (sf + 1 - lo)).map fun k => (lo + k) % ringLen m).filter fun p => o.valid.contains p

/-- The real rows that rollout step `r` reads, by layer and position. -/
def rolloutRows (m : OpalImage) (o : Rollout) (r : Nat) : List (Nat × Nat) :=
  (List.range m.nlayer).flatMap fun l => (rolloutPositions m o r).map (l, ·)

/-- The window of rollout step `r` in layer `l`: the real rows that could be read, then the rollout's own rows, in sequence
order (R296, R302). -/
def rolloutWindow (m : OpalImage) (x : Cache) (o : Rollout) (lost : List (Nat × Nat)) (r l : Nat) : List KVRow :=
  let sf := o.sf.toNat
  let real := (rolloutPositions m o r).filter fun p => !lost.contains (l, p)
  let own := (o.rows.zipIdx.filter fun y => sf + r - m.window ≤ sf + 1 + y.2).map fun y => y.1.getD l noRow
  real.map (fun p => tabGet noRow x.rows (l * ringLen m + p)) ++ own

/-- Books one rollout step as a class U item on the earliest-free rollout lane: t_o + 6.0 ns, with D_m (R298). The lane stands in
the rollout. -/
def bookRollout (s : State) (c k : Nat) (m : OpalImage) (pl : Nat) : State :=
  let l := s.work.ledger
  let best := (rolloutLanes s c).foldl (fun (b : Option Nat) k =>
    match b with
    | none => some k
    | some j => if tabGet 0 l.lanes k < tabGet 0 l.lanes j then some k else some j) none
  match best, stepTime s c m pl (dmOf s c) with
  | some j, some t =>
    setRollout (setLedger s { l with lanes := tabSet 0 l.lanes j (max (admNow s) (tabGet 0 l.lanes j) + t + scaled (dmOf s c) (tenths 60)) })
      c k { rolloutAt s c k with lane := some j }
  | _, _ => s

/-- Whether a read for the rollout of a scratch slot is outstanding or waits to be sent. -/
def rolloutReads (s : State) (c k : Nat) : Bool :=
  (openReqs s).any fun q => match q.purpose with | .rolloutRead d j _ _ => d = c && j = k | _ => false

/-- The reads of a rollout step of a remote instrument are sent: its real rows, and the header again (R297). -/
def readRollouts (s : State) (c k : Nat) (m : OpalImage) : State :=
  let o := rolloutAt s c k
  let d := dirAt s o.instr
  let tag := ctxTag s c
  let s := setRollout s c k { o with reading := true, bad := [] }
  let s := (rolloutRows m o (o.done + 1)).foldl (fun s r =>
    windowRead s tag d.region (d.addr.toNat + rowOffset m r.1 r.2) (rowBytes m) (.rolloutRead c k (some r))) s
  windowRead s tag d.region d.addr.toNat 256 (.rolloutRead c k none)

/-- An uncorrectable header line fails a rollout step: the rollout is Abandoned, and Mantel resets the header (R298, R318). -/
def rolloutHeaderFault (s : State) (c k : Nat) : State :=
  let i := (rolloutAt s c k).instr
  resetHeader (endRollout s c k .abandoned) (ctxTag s c) i

/-- A read for a rollout step was answered with an error, or never (R302, R318). -/
def rolloutReadFault (s : State) (c k : Nat) (row : Option (Nat × Nat)) : State :=
  let o := rolloutAt s c k
  let s := bump s 0x2700 6
  if o.state ≠ .running then s
  else match row with
    | none => rolloutHeaderFault s c k
    | some r => if o.bad.contains r then s else bump32 (setRollout s c k { o with bad := o.bad ++ [r] }) (cb c 5) 8

/-- Rollout step r is computed, with the rows that cannot be read left out, and its result appended unless live steps may have
overwritten the rows it read (R296, R297). -/
def computeRollout (s : State) (c k : Nat) (m : OpalImage) (im : Image) (lost : List (Nat × Nat)) : State :=
  let o := { rolloutAt s c k with reading := false, bad := [] }
  let x := cacheAt s o.instr
  let r := o.done + 1
  let prev := if o.done = 0 then o.first else o.results.getD (o.done - 1) []
  let y := opalStep m (eventEntries im.feat) (rolloutEvent m (eventEntries im.feat) prev) ((List.range m.nlayer).map (rolloutWindow m x o lost r))
  let s := bumpBy 64 (stick s (cb c 5) 2 y.flags) (cb c 5) 6 y.flushed
  if m.fres ≤ (x.next - (o.sf + 1)).toNat && m.nlayer ≠ 0 then endRollout (setRollout s c k o) c k .overtaken
  else
    let s := bump (setRollout s c k { o with done := r, results := o.results ++ [y.vals], rows := o.rows ++ [y.rows] }) 0x2600 4
    if r = o.steps then endRollout s c k .done else s

/-- ROLLOUT_STEP (R296–R298): the next step of a rollout runs on a rollout lane. On a remote instrument its reads are sent first, and
it completes once they are answered. -/
def execRolloutStep (c : BitVec 6) (read : ScratchRead) (s : State) : Host.Outcome State Fault Refusal :=
  let c := c.toNat
  let k := read.slot.toNat
  let o := rolloutAt s c k
  .next (
    match (ctxAt s c).weights, (ctxAt s c).image with
    | some m, some im =>
      let pl := (dirAt s o.instr).pl
      if o.state ≠ .running || o.waits.isSome || o.steps ≤ o.done || (rolloutLanes s c).isEmpty
          || !((storeDomains s pl).all (domIsOn s)) || !regionServes s o.instr pl then s
      else if pl = 2 && m.nlayer ≠ 0 then
        if !o.reading then readRollouts (bookRollout s c k m pl) c k m
        else if rolloutReads s c k then s
        else computeRollout s c k m im o.bad
      else
        let s := bookRollout s c k m pl
        if pl ≠ 1 || m.nlayer = 0 then computeRollout s c k m im []
        else
          let rows := rolloutRows m o (o.done + 1)
          let (hit, s) := readLocal s o.instr m rows read.faults
          if hit.any (· < 4) then rolloutHeaderFault s c k
          else
            let lost := rows.filter fun r => hit.any fun n => rowTouches m n r
            computeRollout (bumpBy 32 s (cb c 5) 8 lost.length) c k m im lost
    | _, _ => s)

/-- Status code of a rollout (R298). -/
def rollCode (r : RollState) : Nat :=
  match r with
  | .idle => 0
  | .running => 1
  | .done => 2
  | .overtaken => 3
  | .abandoned => 4

/-- Rollout status as read at CB+0x05:0E. -/
def rolloutStatus (r : Rollout) : Bytes :=
  [BitVec.ofNat 8 (rollCode r.state), 0] ++ toLe 2 r.done ++ toLe 4 r.sf.toNat ++ toLe 2 r.instr ++ List.replicate 6 0

/-- A read of Rollout status: an ended rollout's slot returns to Idle (R298). -/
def readRollout (q : Requester) (c : Nat) (s : State) : Bytes × State :=
  let k := selected s q (cb c 5) 0x0D
  let r := rolloutAt s c k
  (rolloutStatus r, if r.state = .idle || r.state = .running then s else setRollout s c k Rollout.reset)

/-- ROLLOUT_STATUS_READ (R298). -/
def execRolloutStatusRead (q : Requester) (c : BitVec 6) (s : State) : Host.Outcome State Fault Refusal :=
  .next (readRequest s q (cb c.toNat 5) 0x0E (readRollout q c.toNat))

end Sys2Proof.Machine
end

