-- ==== Sys2Proof/Machine/Mantel.lean ====
section
/-! DEFINITION. Mantel's commands (10): migrations, regions, quotas, remote write failures, spare rows and banks. -/

namespace Sys2Proof.Machine

/-! ### Migrations (R323–R325) -/

/-- A Migrate request. -/
structure MigrateReq where
  instr : Nat
  dest : Nat
  region : Nat
  deriving DecidableEq, Repr

/-- The fields of a Migrate request of 8 bytes; none where a reserved field is set. -/
def readMigrate (data : Bytes) : Option MigrateReq :=
  let i := leAt data 0 2
  if i < 16384 && zeroAt data 4 4 then some { instr := i, dest := (byteAt data 2).toNat, region := (byteAt data 3).toNat } else none

/-- Room at the destination of a migration. -/
def migrateRoom (s : State) (c : Nat) (r : MigrateReq) : Option Nat :=
  let n := ctxCacheBytes s c
  if r.dest = 1 then fitLocal s c n else fitRegion s (regionAt s r.region) n

/-- Whether the values of a Migrate request lie in their ranges (R323). REGION counts for DEST 2 alone. -/
def migrateInRange (s : State) (c : Nat) (r : MigrateReq) : Bool :=
  inInstruments s c r.instr && (r.dest = 1 || r.dest = 2) && r.dest ≠ (dirAt s r.instr).pl
    && (if r.dest = 2 then
        let v := regionAt s r.region
        r.region < 64 && regionV v && regionState v = 0 && regionCtx v = c
      else true)

/-- Migrations in progress in the block: those whose MIG is set. -/
def migrations (s : State) : Nat := (s.store.migs.filter fun x => x.2.isSome).length

/-! #### The transfer of a cache (R323) -/

/-- Every position of a ring. -/
def ringPositions (m : OpalImage) : List Nat := List.range (ringLen m)

/-- Positions of the events from `sc` up to `next`, at most the whole ring (R323). -/
def eventPositions (m : OpalImage) (sc next : BitVec 32) : List Nat :=
  let n := (next - sc).toNat
  if ringLen m ≤ n then ringPositions m else (List.range n).map fun k => (sc.toNat + k) % ringLen m

/-- The bytes of the row of layer `l` at a position of a cache. -/
def cacheRow (m : OpalImage) (x : Cache) (l p : Nat) : Bytes := padTo (rowBytes m) (rowData (tabGet noRow x.rows (l * ringLen m + p)))

/-- Writes the header and the rows of some positions of a cache to a place in the remote window, `why` naming each piece by its
position, none for the header, and its address. -/
def windowCopy (s : State) (tag : BitVec 14) (region : BitVec 6) (a : Nat) (m : OpalImage) (x : Cache) (ps : List Nat)
    (why : Option Nat → Nat → Purpose) : State :=
  let s := (List.range m.nlayer).foldl (fun s l => ps.foldl (fun s p =>
    windowWrite s tag region (a + rowOffset m l p) (cacheRow m x l p) (why (some p))) s) s
  windowWrite s tag region a (headerBytes x) (why none)

/-- Reads the header and the rows of some positions of a remote cache. -/
def windowFetch (s : State) (tag : BitVec 14) (region : BitVec 6) (a : Nat) (m : OpalImage) (ps : List Nat)
    (why : Option Nat → Nat → Purpose) : State :=
  let s := (List.range m.nlayer).foldl (fun s l => ps.foldl (fun s p =>
    windowRead s tag region (a + rowOffset m l p) (rowBytes m) (why (some p))) s) s
  windowRead s tag region a 256 (why none)

/-- The requests that carry the header and the rows of some positions from a migration's source to its destination: reads of a
remote source, and writes to a remote destination. What is written to local space reads as written. -/
def carry (s : State) (i : Nat) (g : Migration) (ps : List Nat) : State :=
  match modelOf s g.ctx with
  | none => s
  | some m =>
    let d := dirAt s i
    let tag := ctxTag s g.ctx
    let s := if d.pl = 2 then windowFetch s tag d.region d.addr.toNat m ps (.migrate i) else s
    if d.pl ≠ 1 && d.pl ≠ 2 then s
    else if g.dest = 2 then windowCopy s tag g.region g.addr.toNat m (cacheAt s i) ps (.migrate i)
    else writeLines s g.addr.toNat (cacheBytes m)

/-- Whether a request of an instrument's migration is still to be answered. -/
def carrying (s : State) (i : Nat) : Bool :=
  (openReqs s).any fun q => match q.purpose with | .migrate j _ _ => j = i | _ => false

/-- What the banks report of the lines of a local source that were carried (R318): the positions with a row that could not be read
do not reach the destination, and a header that could not be read does not either. The spec gives such rows no rule: they are
left out as R331 has it for a relayout (DESIGN CHOICE, notes/assumptions/48). -/
def noteCarried (s : State) (i : Nat) (g : Migration) (ps : List Nat) (f : LineFaults) : Migration × State :=
  match modelOf s g.ctx with
  | none => (g, s)
  | some m =>
    if (dirAt s i).pl ≠ 1 then (g, s)
    else
      let rows := (List.range m.nlayer).flatMap fun l => ps.map (l, ·)
      let (hit, s) := readLocal s i m rows f
      let lost := ps.filter fun p => (List.range m.nlayer).any fun l => hit.any fun n => rowTouches m n (l, p)
      ({ g with bad := (g.bad ++ lost).eraseDups, badHeader := g.badHeader || hit.any (· < 4) }, s)

/-- A request of a migration ends with an error, or never (R317, R318): a failed write counts as R317 says, a failed read is an
uncorrectable line, and what it carried does not reach the destination. After the switch a failed write is one of the cache. -/
def carryFault (s : State) (i : Nat) (pos : Option Nat) (addr : Nat) (write : Bool) : State :=
  match migAt s i, ownerOf s i with
  | some g, some c =>
    let s := if write then sootCtx (bump32 s (cb c 6) 0x0D) c 0x2701 (i + (if pos.isNone then 65536 else 0)) addr else bump s 0x2700 6
    setMig s i (some (match pos with
      | some p => { g with bad := if g.bad.contains p then g.bad else g.bad ++ [p] }
      | none => { g with badHeader := true }))
  | none, _ => if write then remoteWriteFail s i pos addr else s
  | some _, none => s

/-- A copy phase starts: the header and every row go to the destination (R323). -/
def copyPhase (s : State) (i : Nat) (g : Migration) : State :=
  match modelOf s g.ctx with
  | none => s
  | some m => carry s i g (ringPositions m)

/-- The rules of CB+0x06:08 (R323). -/
def writeMigrate (c : Nat) (data : Bytes) (s : State) : Ans :=
  if data.length < 8 then .error abShort
  else if 8 < data.length then .error abLong
  else match readMigrate data with
    | none => .error abRange
    | some r =>
      if !migrateInRange s c r then .error abRange
      else if !mayChange s c || (dirAt s r.instr).mig || 16 ≤ migrations s then .error abState
      else match migrateRoom s c r with
        | none => .error abMemory
        | some a =>
          let d := dirAt s r.instr
          let g : Migration :=
            { ctx := c, dest := r.dest, region := BitVec.ofNat 6 r.region, addr := BitVec.ofNat 34 a,
              sc := (cacheAt s r.instr).next, copies := 1, phase := .copying, bad := [], badHeader := false }
          .ok (copyPhase (setMig (setDir s r.instr { d with mig := true }) r.instr (some g)) r.instr g)

/-- MIGRATE (R323). -/
def execMigrate (q : Requester) (c : BitVec 6) (bytes : Bytes) (s : State) : Host.Outcome State Fault Refusal :=
  .next (request s q (cb c.toNat 6) 8 bytes (writeMigrate c.toNat bytes))

/-- t_lock for k rows per layer (R324). -/
def lockTime (s : State) (m : OpalImage) (c src dst k : Nat) : Time :=
  2 * (lambda s c src + lambda s c dst) + (cdiv ((256 + k * m.nlayer * rowBytes m) * 5120000000) 400 : Nat)

/-- MIGRATE_COPY_DONE (R324): once every request of the copy is answered, the lock is booked, the copy repeats, or after eight
copies the migration fails. A bank that the faults of a local source retire ends a migration its relayout
moves (R331). -/
def execMigrateCopyDone (copy : CopyRead) (s : State) : Host.Outcome State Fault Refusal :=
  let i := copy.instrument.toNat
  .next (
    match migAt s i with
    | none => s
    | some g =>
      if g.phase ≠ .copying || carrying s i then s
      else match modelOf s g.ctx with
        | none => s
        | some m =>
          let (g, s) := noteCarried s i g (ringPositions m) copy.faults
          if (migAt s i).isNone then s else
          let k := min ((cacheAt s i).next - g.sc).toNat (ringLen m)
          if k ≤ 16 then
            let l := s.work.ledger
            let start := max (admNow s) (tabGet 0 l.instrs i)
            let s := setLedger s { l with instrs := tabSet 0 l.instrs i (start + lockTime s m g.ctx (dirAt s i).pl g.dest k) }
            setMig (setDir s i { dirAt s i with lock := true }) i (some { g with phase := .locking })
          else if 8 ≤ g.copies then bump32 (dropMigration s i) (cb g.ctx 6) 0x0C
          else
            let g := { g with sc := (cacheAt s i).next, copies := g.copies + 1, bad := [], badHeader := false }
            copyPhase (setMig s i (some g)) i g)

/-- Whether a step admitted on the source is still booked or running, or its event not yet issued to Opal. -/
def sourceBusy (s : State) (i : Nat) : Bool :=
  let ver := (dirAt s i).ver
  (allSteps s).any (fun x => x.2.instr = i && x.2.ver = ver)
    || s.work.msgs.any fun x =>
      match x.2 with
      | some m => m.instr = some i && m.kind = .s && openMsg m && !m.issued && m.ver = ver
      | none => false

/-- MIGRATE_LOCK (R323, R325): the lock begins once the steps booked before it have published; open rollouts of the
instrument are Abandoned, and the header and the rows of the events since s_c are carried to the destination. -/
def execMigrateLock (instrument : BitVec 14) (s : State) : Host.Outcome State Fault Refusal :=
  let i := instrument.toNat
  .next (
    match migAt s i with
    | none => s
    | some g =>
      if g.phase ≠ .locking || sourceBusy s i then s
      else
        let s := abandonRollouts s g.ctx fun r => r.instr = i
        match modelOf s g.ctx with
        | none => setMig s i (some { g with phase := .locked })
        | some m =>
          let ps := eventPositions m g.sc (cacheAt s i).next
          let g := { g with phase := .locked, bad := g.bad.filter (fun p => !ps.contains p), badHeader := false }
          carry (setMig s i (some g)) i g ps)

/-- The cache as it arrives at the destination of a migration: without what did not reach it. -/
def arrivedCache (s : State) (i : Nat) (g : Migration) : Cache :=
  let x := cacheAt s i
  if g.badHeader then emptyCache s i (dirAt s i).nseq else { x with valid := x.valid.filter fun p => !g.bad.contains p }

/-- The switch of a migration: ADDR, PL and VER + 1 are written, LOCK and MIG clear, and the source waits for its release. An
instrument that was unplaced has no source and starts with an empty cache. Where something did not reach the destination, its
header is written again. -/
def switchMigration (s : State) (i : Nat) (g : Migration) : State :=
  let d := dirAt s i
  let whole := g.bad.isEmpty && !g.badHeader && (d.pl = 1 || d.pl = 2)
  let s := if d.pl = 1 || d.pl = 2 then
      setCache { s with store := { s.store with releasing := tabSet none s.store.releasing i (some (d.pl, d.addr)) } } i (arrivedCache s i g)
    else setCache s i (emptyCache s i d.nseq)
  let s := setDir s i { d with pl := g.dest, addr := g.addr, region := if g.dest = 2 then g.region else 0,
                               ver := d.ver + 1, lock := false, mig := false }
  let s := bump32 (setMig s i none) (cb g.ctx 6) 0x0B
  settleForks (if whole then s else writeHeader s (ctxTag s g.ctx) i) g.ctx i

/-- MIGRATE_SWITCH (R323): the catch-up is done, once every request of it is answered, and the directory is written. -/
def execMigrateSwitch (copy : CopyRead) (s : State) : Host.Outcome State Fault Refusal :=
  let i := copy.instrument.toNat
  .next (
    match migAt s i with
    | none => s
    | some g =>
      if g.phase ≠ .locked || carrying s i then s
      else
        let ps := match modelOf s g.ctx with | none => [] | some m => eventPositions m g.sc (cacheAt s i).next
        let r := noteCarried s i g ps copy.faults
        if (migAt r.2 i).isNone then r.2 else switchMigration r.2 i r.1)

/-- Whether a request to the window addresses from `a` up to `a + n` is still to be answered. -/
def requestsIn (s : State) (a n : Nat) : Bool :=
  (openReqs s).any fun q => match purposeAddr q.purpose with | some b => decide (a ≤ b) && decide (b < a + n) | none => false

/-- Whether a request to the source that an instrument's migration has left is still to be answered: any read or write of a remote
one. -/
def sourceOpen (s : State) (i : Nat) : Bool :=
  match tabGet none s.store.releasing i, ownerOf s i with
  | some (2, a), some c => requestsIn s a.toNat (ctxCacheBytes s c)
  | _, _ => false

/-- MIGRATE_RELEASE (R323): the source is free once every request to it is acknowledged. -/
def execMigrateRelease (instrument : BitVec 14) (s : State) : Host.Outcome State Fault Refusal :=
  let i := instrument.toNat
  .next (if sourceOpen s i then s
    else { s with store := { s.store with releasing := tabSet none s.store.releasing i none } })

/-! ### Regions (R311, R312, R327) -/

/-- Whether two regions share a byte of the window. -/
def regionsMeet (a b : BitVec 256) : Bool :=
  regionBase a < regionBase b + regionSize b && regionBase b < regionBase a + regionSize a

/-- The bits of a descriptor that are reserved, or that Mantel writes. -/
def regionReserved (v : BitVec 256) : Bool := bits v.toNat 7 3 = 0 && bits v.toNat 255 192 = 0

/-- Whether a descriptor with V set may be written to region `r`, the probe of its farthest core taking `probePs` (R312).
512 cores' worth is a region of at least 512 cores (DEDUCED, notes/assumptions/25). -/
def regionOk (s : State) (r : Nat) (v : BitVec 256) (probePs : Nat) : Bool :=
  regionCtx v < 64 && regionHop v ≤ 1023 && 1 ≤ regionNx v && regionNx v ≤ 1024 && 1 ≤ regionNy v && regionNy v ≤ 1024
    && regionPercore v % 1024 = 0 && 1024 ≤ regionPercore v && regionPercore v ≤ 65536 && regionBase v % 1048576 = 0
    && regionSize v % 1048576 = 0 && 512 ≤ regionNx v * regionNy v && regionBase v + regionSize v ≤ 2 ^ 34
    && (validRegions s).all (fun x => x.1 = r || !regionsMeet x.2 v)
    && probePs ≤ 180000 + 1200 * regionHop v

/-- The rules of 0x2700:08 (R312): STATE is ignored, a new region is valid, and one without V invalid. -/
def writeRegion (r : Nat) (data : Bytes) (probePs : Nat) (s : State) : Ans :=
  let v := BitVec.ofNat 256 (leNat data)
  let old := regionAt s r
  if data.length < 32 then .error abShort
  else if 32 < data.length then .error abLong
  else if !regionReserved v || (regionV v && !regionOk s r v probePs) then .error abRange
  else if regionV old && ctxState s (regionCtx old) ≠ .free then .error abState
  else .ok (setRegion s r (regionStored v))

/-- REGION_DESCRIPTOR_WRITE (R312). -/
def execRegionDescriptorWrite (q : Requester) (descriptor : Bytes) (probePs : Nat) (s : State) :
    Host.Outcome State Fault Refusal :=
  .next (request s q 0x2700 8 descriptor (writeRegion (selected s q 0x2700 7) descriptor probePs))

/-- Whether a request of the old generation to region `v` is still to be answered, or the generation that fenced the region has
not ended (R327). -/
def oldRequests (s : State) (v : BitVec 256) : Bool :=
  (match (ctxAt s (regionCtx v)).td with | some t => t.phase = .awaitGen | none => false)
    || (openReqs s).any fun q =>
      (match purposeAddr q.purpose with
        | some a => regionBase v ≤ a && a < regionBase v + regionSize v
        | none => false)
        && (match q.tag with | some t => !tagCurrent s t | none => false)

/-- The header writes that waited for the end of a fence are made, in their order, for the caches of region `r` (R317, R327). -/
def writeHeldHeaders (s : State) (r : Nat) : State :=
  let mine := s.store.heldHeaders.filter fun i => (dirAt s i).pl = 2 && (dirAt s i).region.toNat = r
  let s := { s with store := { s.store with heldHeaders := s.store.heldHeaders.filter fun i => !mine.contains i } }
  mine.foldl (fun s i => match ownerOf s i with | some c => writeHeader s (ctxTag s c) i | none => s) s

/-- REGION_UNFENCE (R327). -/
def execRegionUnfence (region : BitVec 6) (s : State) : Host.Outcome State Fault Refusal :=
  let v := regionAt s region.toNat
  .next (if regionV v && regionState v = 1 && !oldRequests s v then
      writeHeldHeaders (setRegion s region.toNat (regionStored v)) region.toNat
    else s)

/-! ### Quotas and faults (R310, R317) -/

/-- The rules of CB+0x06:01 (R310). -/
def writeQuota (c : Nat) (data : Bytes) (s : State) : Ans :=
  let v := leNat data
  let others := (allCtxs.filter (· ≠ c)).map fun k => val s (cb k 6) 1
  if v < bytesIn s c 1 || localCapacity s < others.sum + v then .error abRange
  else .ok (put s (cb c 6) 1 v)

/-- LOCAL_QUOTA_WRITE (R310). -/
def execLocalQuotaWrite (q : Requester) (c : BitVec 6) (quota : BitVec 32) (s : State) : Host.Outcome State Fault Refusal :=
  .next (request s q (cb c.toNat 6) 1 (toLe 4 quota.toNat) (writeQuota c.toNat (toLe 4 quota.toNat)))

/-- Whether an instrument has, or had before a switch whose source is not free yet, or is to have a place in the remote window. -/
def hasRemote (s : State) (i : Nat) : Bool :=
  (dirAt s i).pl = 2 || (match tabGet none s.store.releasing i with | some (p, _) => p = 2 | none => false)
    || (match migAt s i with | some g => g.dest = 2 | none => false)

/-- REMOTE_WRITE_FAILURE (R317): in every case the failure counts and is logged, also that of a write to the source of a migration
that has switched. -/
def execRemoteWriteFailure (instrument : BitVec 14) (position : Option Nat) (address : BitVec 34) (s : State) :
    Host.Outcome State Fault Refusal :=
  .next (if hasRemote s instrument.toNat then remoteWriteFail s instrument.toNat position address.toNat else s)

/-! ### Banks (R329–R331) -/

/-- SPARE_ROW_REPLACE (R329, R330). -/
def execSpareRowReplace (bank : Nat) (read : RowRead) (s : State) : Host.Outcome State Fault Refusal :=
  if 6 ≤ bank || 8192 ≤ read.row then .fault .noSuchUnit
  else .next (retireRow s bank read.row (read.unread.filterMap fun l => (rowLines s bank read.row)[l.toNat]?))

/-- BANK_RETIRE (R330, R331). -/
def execBankRetire (bank : Nat) (s : State) : Host.Outcome State Fault Refusal :=
  if 6 ≤ bank then .fault .noSuchUnit else .next (retireBank s bank)

/-- The lines of local space, as it was last laid, that cannot be read: those of a bank whose domain is retired, and those that
read as uncorrectable (R329, R331). -/
def unreadLine (s : State) (line : Nat) : Bool :=
  s.store.badLines.contains line
    || (match lineRow s line with | some (b, _) => (domAt s (bankDomain b)).retired | none => false)

/-- Positions of a cache at local address `a` with a row that has a line which cannot be read (R331). -/
def lostPositions (s : State) (m : OpalImage) (a : Nat) : List Nat :=
  (ringPositions m).filter fun p => (List.range m.nlayer).any fun l =>
    let o := a + rowOffset m l p
    (List.range ((o % 64 + rowBytes m + 63) / 64)).any fun k => unreadLine s (o / 64 + k)

/-- A context's scratch slots and resend ring are allocated again, in their order, ahead of its caches (R320, R331). -/
def relayRuns (s : State) (c : Nat) (runs : List (Nat × Nat)) : State :=
  runs.foldl (fun s r =>
    let a := (firstFit (allRuns s 1) 0 (localCapacity s) r.2).getD r.1
    setCtx s c { ctxAt s c with runs := (ctxAt s c).runs ++ [(a, r.2)] }) s

/-- A cache that leaves local space in a relayout goes to its context's regions, which its bytes are written to, or becomes
unplaced (R331). -/
def relayOut (s : State) (c i : Nat) (m : OpalImage) : State :=
  let d := { dirAt s i with ver := (dirAt s i).ver + 1, lock := false, mig := false }
  match fitRemote s c (cacheBytes m) with
  | none => setDir s i { d with pl := 3, addr := 0, region := 0 }
  | some (r, a) =>
    let s := setDir s i { d with pl := 2, addr := BitVec.ofNat 34 a, region := BitVec.ofNat 6 r }
    windowCopy s (ctxTag s c) (BitVec.ofNat 6 r) a m (cacheAt s i) (ringPositions m) fun p a =>
      match p with | some p => .mantelRow i p a | none => .mantelHeader i a

/-- The local caches of a context before a relayout, in increasing instrument order. -/
def localCaches (s : State) (c : Nat) : List (Nat × Dir) := (ctxDir s c).filter fun x => x.2.pl = 1

/-- Lays a context's local caches again in increasing instrument order while its quota has room; the others, from the highest
index down, leave local space (R331). -/
def relayCtx (s : State) (c : Nat) (locals : List (Nat × Dir)) : State :=
  match modelOf s c with
  | none => s
  | some m =>
    let n := cacheBytes m
    let room := if n = 0 then locals.length else (val s (cb c 6) 1 - bytesIn s c 1) / n
    let s := (locals.take room).foldl (fun s x =>
      match fitLocal s c n with
      | some a => setDir s x.1 { x.2 with pl := 1, addr := BitVec.ofNat 34 a, lock := false, mig := false }
      | none => s) s
    let left := locals.reverse.filter fun x => (dirAt s x.1).pl = 3
    left.foldl (fun s x => relayOut s c x.1 m) s

/-- Local space is laid again over the remaining banks (R331): every local cache loses the rows that cannot be read and its
place, the scratch slots and resend rings take theirs again, and then the caches do, context by context. -/
def relayLocal (s : State) : State :=
  let cs := allCtxs.filter fun c => ctxState s c ≠ .free
  let work := cs.map fun c => (c, (ctxAt s c).runs, localCaches s c)
  let s := work.foldl (fun s w =>
    match modelOf s w.1 with
    | none => s
    | some m => w.2.2.foldl (fun s x =>
        let y := cacheAt s x.1
        let gone := lostPositions s m x.2.addr.toNat
        setDir (setCache s x.1 { y with valid := y.valid.filter fun p => !gone.contains p }) x.1 { x.2 with pl := 3 }) s) s
  let s := cs.foldl (fun s c => setCtx s c { ctxAt s c with runs := [] }) s
  let kept := s.store.releasing.filter fun x => match x.2 with | some (p, _) => p ≠ 1 | none => true
  let s := { s with store := { s.store with badLines := [], relayBanks := [], releasing := kept } }
  let s := work.foldl (fun s w => relayRuns s w.1 w.2.1) s
  work.foldl (fun s w =>
    let s := relayCtx s w.1 w.2.2
    sootCtx s w.1 0x2703 (ub s) w.2.2.length) s

/-- LOCAL_RELAYOUT_DONE (R331): local space has been laid again over the remaining banks. -/
def execLocalRelayoutDone (s : State) : Host.Outcome State Fault Refusal :=
  .next (
    if !s.store.relaying then s
    else
      let s := relayLocal s
      bump32 { s with store := { s.store with relaying := false } } 0x2700 0x0A)

end Sys2Proof.Machine
end

