-- ==== Sys2Proof/Machine/ChannelOps.lean ====
section
/-! DEFINITION. What a Flue channel does with a packet or a failure (14): the common checks of reception, the completion of
requests, retirement, and the resend ring as BRD reads it. -/

namespace Sys2Proof.Machine

/-! ### Requests (R317, R318, R452, R454) -/

/-- A request ends without its data or effect: a response with an error, its lifetime, or the retirement of its channel.
The writes of a ring chain report with RING_CHAIN_WRITE (notes/assumptions/32). -/
def failReq (s : State) (r : Req) : State :=
  match r.purpose with
  | .mantelRow i p a => remoteWriteFail s i (some p) a
  | .mantelHeader i a => remoteWriteFail s i none a
  | .mantelRead k p _ => readFault s k p
  | .rolloutRead c k p _ => rolloutReadFault s c k p
  | .migrate i p a => carryFault s i p a (r.type = 2)
  | .probeTo x y _ => markUnreachable s (x, y)
  | .ring _ => s
  | .staging => s

/-- A response matches none of the channel's requests (R452). -/
def unmatched (s : State) : State := bump s 0x2A00 4

/-- An inbound packet is refused (R448, R450, R453). -/
def refuseInbound (s : State) : State := bump s 0x2A00 7

/-- Answers a request on the channel that carried it (R440). -/
def answer (s : State) (f : Nat) (p : Pkt) (type status arg : Nat) (payload : Bytes) : State :=
  sendPkt s f { type := type, ctxv := p.ctxv, status := status, dx := p.sx, dy := p.sy, sx := 0, sy := 0, tag := p.tag,
                rid := p.rid, arg := BitVec.ofNat 64 arg, payload := payload } none

/-! ### Retirement (R458) -/

/-- Contexts whose held configuration has a spread entry on channel `f`. -/
def spreadCtxs (s : State) (f : Nat) : List Nat := ((spreadsOn s f).map (·.1)).eraseDups

/-- A channel is retired: its requests end with an error, and a spread context enters Recovering. `cause` is that of the
entry 0x2A01. -/
def retireChannel (s : State) (f cause : Nat) : State :=
  let x := chanAt s f
  if x.state = .retired then s
  else
    let owners := spreadCtxs s f
    let reqs := chanReqs x
    let gone := { Chan.reset with
      state := .retired, x := x.x, y := x.y, sent := x.sent, received := x.received, crcErrors := x.crcErrors,
      replays := x.replays, reuse := x.reuse }
    let t := soot (setChan s f gone) 0x2A01 none f cause
    let t := noteRetired t 5 f (t.flue.chans.filter fun c => c.2.state = .retired).length
    let t := reqs.foldl failReq t
    let t := owners.foldl (fun t c => dropActive (enterRecovering t c 0x0206) c fun g => g.spreads.any fun e => siteChannel e.site = f) t
    noteFlue s t

/-! ### Reception (R437–R441, R451) -/

/-- The flits of a packet are freed and returned in the CRn counts (R437, R441). -/
def freeFlits (x : Chan) (bs : Bytes) : Chan :=
  let vc := vcOf (byteAt bs 0).toNat
  { x with freed := x.freed.set vc (x.freed.getD vc 0 + BitVec.ofNat 16 (pktFlits bs)) }

/-- A packet is discarded (R437, R441): a bad CRC is answered with a NAK at once, and the first packet out of order too. -/
def discardPkt (s : State) (f : Nat) (bs : Bytes) : State :=
  let x := chanAt s f
  let y := { freeFlits x bs with nak := true }
  let s := setChan s f y
  if x.nak && pktGood bs then s else emit s (.flit f (ctrlFlit y 2))

/-- A bad CRC counts; past its threshold the channel is retired (R442, R443, R495). -/
def crcBad (s : State) (f : Nat) (bs : Bytes) : State :=
  let x := chanAt s f
  let s := bump (setChan s f { x with crcErrors := x.crcErrors + 1 }) 0x2A00 5
  let (due, s) := strike s 5 f
  if due then retireChannel s f 1 else discardPkt s f bs

/-- A packet in order with a good CRC is accepted. -/
def acceptPkt (s : State) (f : Nat) (bs : Bytes) : State :=
  let x := freeFlits (chanAt s f) bs
  setChan s f { x with rxSeq := x.rxSeq + 1, received := x.received + 1, nak := false }

/-- Whether a type is a response (R440). -/
def isResponse (type : Nat) : Bool := 0x81 ≤ type && type ≤ 0x85

/-- The response type of a request type. -/
def responseType (type : Nat) : Option Nat := if 1 ≤ type && type ≤ 5 then some (type + 0x80) else none

/-- A response with a stale tag ends the request that it answers (R17, R327, R451, R452): a request that was answered with an
error has failed, whatever the generation (R317). -/
def freeMatched (s : State) (f : Nat) (p : Pkt) : State :=
  match matchReq (chanAt s f) p with
  | none => s
  | some (e, r) =>
    let s := freeReq s f e
    releaseHeld (pump (if p.status = 0 then s else failReq s r) f)

/-- The common checks of reception on channel `f` for a packet of a type: the link's CRC and order (R441), the reserved
fields (R439), and the tag (R451); then what the type does with it. -/
def receive (s : State) (f type : Nat) (bs : Bytes) (go : State → Pkt → State) : State :=
  let x := chanAt s f
  if x.state ≠ .up || byteAt bs 0 ≠ BitVec.ofNat 8 type then s
  else if !pktGood bs then crcBad s f bs
  else if pktSeq bs ≠ x.rxSeq then discardPkt s f bs
  else
    let s := acceptPkt s f bs
    let p := pktOf bs
    if !pktReservedOk bs then
      match responseType type with
      | some t => refuseInbound (answer s f p t 2 (if type = 4 || type = 5 then p.arg.toNat else 0) [])
      | none => refuseInbound s
    else if p.ctxv && !tagCurrent s p.tag then
      let s := staleDrop s p.tag
      if isResponse type then freeMatched s f p else s
    else go s p

/-- A response to a request of this channel (R317, R318, R452, R454): STATUS 0 completes it, any other fails it, and STATUS
3 also marks the node unreachable. One that comes at the request's lifetime or after it is unmatched, and the request is
abandoned. -/
def takeResponse (s : State) (f : Nat) (p : Pkt) (done : State → Req → State) : State :=
  match matchReq (chanAt s f) p with
  | none => unmatched s
  | some (e, r) =>
    if requestLifetime ≤ elapsed s - r.sentAt then releaseHeld (pump (failReq (abandon (unmatched s) f e) r) f)
    else
    let s := freeReq s f e
    let s := if p.status = 3 then markUnreachable s (BitVec.ofNat 16 p.sx, BitVec.ofNat 16 p.sy) else s
    releaseHeld (pump (if p.status = 0 then done s r else failReq s r) f)

/-! ### The resend ring as memory (R426, R450) -/

/-- The 320 bytes of a resend entry (R426). -/
def resendBytes (e : Resend) : Bytes :=
  toLe 4 e.seq.toNat ++ toLe 2 e.frame.length ++ [BitVec.ofNat 8 e.session, BitVec.ofNat 8 e.status] ++ toLe 8 e.e
    ++ toLe 4 e.msgno.toNat ++ List.replicate 12 0 ++ e.frame ++ List.replicate (288 - e.frame.length) 0

/-- Entry `k` of the resend ring of a context; zeros where nothing has been written. -/
def resendEntry (s : State) (c k : Nat) : Bytes :=
  match tabGet none (ctxAt s c).resend k with
  | none => List.replicate 320 0
  | some e => resendBytes e

/-- Resend entries and address of the ring of a context (CB+0x08:0A, :0B): its last local run. -/
def resendRing (s : State) (c : Nat) : Nat × Nat :=
  match (ctxAt s c).image with
  | none => (0, 0)
  | some m => if m.chim.rent = 0 then (0, 0) else (m.chim.rent, (((ctxAt s c).runs.getLast?).map (·.1)).getD 0)

/-- The bytes that a BRD reads, where all of them lie in the resend ring of the tag's context (R450). A BRD of no bytes is refused
like one of too many (DESIGN CHOICE: R440 gives its RLEN no range of its own and R37 calls a zero length a no-op,
notes/assumptions/45). -/
def brdBytes (s : State) (c a n : Nat) : Option Bytes :=
  let ring := resendRing s c
  if 1 ≤ n && n ≤ 1024 && ring.2 ≤ a && a + n ≤ ring.2 + 320 * ring.1 then
    let o := a - ring.2
    let ks := (List.range ((o + n + 319) / 320 - o / 320)).map (o / 320 + ·)
    some (slice (ks.flatMap fun k => resendEntry s c k) (o % 320) n)
  else none

end Sys2Proof.Machine
end

