-- ==== Sys2Proof/Machine/Flue.lean ====
section
/-! DEFINITION. The Flue's commands (14): training and link control, retries, requests and responses, spread circuits,
beacons and probes. -/

namespace Sys2Proof.Machine

/-! ### Links (R436, R437, R441, R442) -/

/-- CHANNEL_TRAINING_DONE (R436, R442): 64 good training flits at each end bring a channel in Training Up; its credits start afresh,
and a replay buffer that it kept is replayed. -/
def execChannelTrainingDone (f : BitVec 8) (s : State) : Host.Outcome State Fault Refusal :=
  let f := f.toNat
  let x := chanAt s f
  .next (
    if x.state = .training && domIsOn s (chanDomain f) then
      let y := { x with
        state := .up, nak := false, credIn := [0, 0, 0], freed := [0, 0, 0], flits := [0, 0, 0],
        unacked := x.unacked.map (fun u => (u.1, 1, u.2.2)), again := x.unacked.map (·.1),
        replays := if x.unacked.isEmpty then x.replays else x.replays + 1 }
      let t := setChan s f y
      let t := if x.unacked.isEmpty then t else bump t 0x2A00 6
      noteFlue s (pump t f)
    else s)

/-- CHANNEL_TRAINING_TIMEOUT (R436, R443): the channel has not reached Up within 10 µs and is retired. -/
def execChannelTrainingTimeout (f : BitVec 8) (s : State) : Host.Outcome State Fault Refusal :=
  .next (if (chanAt s f.toNat).state = .training then retireChannel s f.toNat 2 else s)

/-- A channel that is Down with its half On trains again (R436): at its next flit time, or when the far end's training flits come
(DESIGN CHOICE, notes/assumptions/49). -/
def retrain (s : State) (f : Nat) : State :=
  let x := chanAt s f
  if x.state = .down && domIsOn s (chanDomain f) then noteFlue s (setChan s f { x with state := .training }) else s

/-- CHANNEL_LINK_LOST (R436): the channel goes Down; what it has not had acknowledged stays in its replay buffer. -/
def execChannelLinkLost (f : BitVec 8) (s : State) : Host.Outcome State Fault Refusal :=
  let x := chanAt s f.toNat
  .next (if x.state = .up || x.state = .training then noteFlue s (setChan s f.toNat { x with state := .down, again := [] }) else s)

/-- Whether a control flit's CRC is good (R437). -/
def flitGood (b : Flit) : Bool := b.length = 16 && leAt b 12 4 = crc32c (b.take 12)

/-- LINK_CONTROL_FLIT (R436, R437, R441, R442): acknowledgements and credits are taken, and a NAK is answered by a replay. A training
flit takes a channel that is Down into Training. -/
def execLinkControlFlit (f : BitVec 8) (flit : Flit) (s : State) : Host.Outcome State Fault Refusal :=
  let f := f.toNat
  let x := chanAt s f
  let type := (byteAt flit 0).toNat
  .next (
    if flitGood flit && type = 3 then retrain s f
    else if x.state ≠ .up || !flitGood flit || (type ≠ 1 && type ≠ 2) then s
    else
      let y := ackTo x (BitVec.ofNat 16 (leAt flit 2 2))
      let y := { y with credIn := [4, 6, 8].map fun o => BitVec.ofNat 16 (leAt flit o 2) }
      let s := setChan s f y
      if type = 2 then replay s f else pump s f)

/-- STATUS_FLIT_TIMER (R436, R437): a status flit is sent at least every 32 ns while the channel is Up, and training flits while it is in
Training. -/
def execStatusFlitTimer (f : BitVec 8) (s : State) : Host.Outcome State Fault Refusal :=
  let f := f.toNat
  let s := retrain s f
  let x := chanAt s f
  .next (match x.state with
    | .up => emit s (.flit f (ctrlFlit x 1))
    | .training => emit s (.flit f (ctrlFlit x 3))
    | _ => s)

/-- CRC_ERROR (R441–R443): a packet with a bad CRC or out of order is discarded. -/
def execCrcError (f : BitVec 8) (packet : Packet) (s : State) : Host.Outcome State Fault Refusal :=
  let f := f.toNat
  let x := chanAt s f
  .next (
    if x.state ≠ .up then s
    else if !pktGood packet then crcBad s f packet
    else if pktSeq packet ≠ x.rxSeq then discardPkt s f packet
    else s)

/-- REPLAY_TIMEOUT (R442): ACKSEQ has not passed a packet within 500 ns of its sending. -/
def execReplayTimeout (f : BitVec 8) (s : State) : Host.Outcome State Fault Refusal :=
  .next (if (chanAt s f.toNat).state = .up then replay s f.toNat else s)

/-- REQUEST_LIFETIME_EXPIRED (R17, R452): an outstanding request reaches 100 µs and is abandoned. -/
def execRequestLifetimeExpired (f : BitVec 8) (entry : BitVec 10) (s : State) : Host.Outcome State Fault Refusal :=
  .next (
    match tabGet none (chanAt s f.toNat).outstanding entry.toNat with
    | none => s
    | some r => releaseHeld (pump (failReq (abandon s f.toNat entry.toNat) r) f.toNat))

/-! ### Requests from the mesh (R448, R450) -/

/-- RD (R450): a read addressed to the block is refused. -/
def execRd (f : BitVec 8) (packet : Packet) (s : State) : Host.Outcome State Fault Refusal :=
  .next (receive s f.toNat 0x01 packet fun s p => refuseInbound (answer s f.toNat p 0x81 2 0 []))

/-- WR (R450): a write addressed to the block is refused. -/
def execWr (f : BitVec 8) (packet : Packet) (s : State) : Host.Outcome State Fault Refusal :=
  .next (receive s f.toNat 0x02 packet fun s p => refuseInbound (answer s f.toNat p 0x82 2 0 []))

/-- BRD (R450): wafer software reads the resend ring of its context. -/
def execBrd (f : BitVec 8) (packet : Packet) (s : State) : Host.Outcome State Fault Refusal :=
  .next (receive s f.toNat 0x03 packet fun s p =>
    match (if p.ctxv then brdBytes s (tagCtx p.tag) (p.arg.toNat % 2 ^ 32) (bits p.arg.toNat 47 32) else none) with
    | some bs => answer s f.toNat p 0x83 0 0 bs
    | none => refuseInbound (answer s f.toNat p 0x83 2 0 []))

/-- PROBE (R450): always answered, ARG echoed. -/
def execProbe (f : BitVec 8) (packet : Packet) (s : State) : Host.Outcome State Fault Refusal :=
  .next (receive s f.toNat 0x04 packet fun s p => answer s f.toNat p 0x84 0 p.arg.toNat [])

/-- DOORBELL (R448): the effect of a write of Tail to a wafer ring. -/
def execDoorbell (f : BitVec 8) (packet : Packet) (s : State) : Host.Outcome State Fault Refusal :=
  .next (receive s f.toNat 0x11 packet fun s p =>
    let r := p.arg.toNat % 256
    if r < 8 || 64 ≤ r || ringDir s r = 0 then refuseInbound s
    else match writeTail r (toLe 2 (bits p.arg.toNat 31 16)) s with
      | .ok t => t
      | _ => s)

/-! ### Responses (R452, R454) -/

/-- RD_DATA (R318, R452). -/
def execRdData (f : BitVec 8) (packet : Packet) (s : State) : Host.Outcome State Fault Refusal :=
  .next (receive s f.toNat 0x81 packet fun s p => takeResponse s f.toNat p fun s _ => s)

/-- WR_ACK (R317, R452). -/
def execWrAck (f : BitVec 8) (packet : Packet) (s : State) : Host.Outcome State Fault Refusal :=
  .next (receive s f.toNat 0x82 packet fun s p => takeResponse s f.toNat p fun s _ => s)

/-- A destination can be reached again (R454). -/
def markReachable (s : State) (d : BitVec 16 × BitVec 16) : State :=
  { s with flue := { s.flue with unreachable := s.flue.unreachable.filter (· != d) } }

/-- PROBE_ACK (R312, R398, R454): a probe that comes back within its limit marks its destination reachable. -/
def execProbeAck (f : BitVec 8) (packet : Packet) (elapsedPs : Nat) (s : State) : Host.Outcome State Fault Refusal :=
  .next (receive s f.toNat 0x84 packet fun s p => takeResponse s f.toNat p fun s r =>
    match r.purpose with
    | .probeTo x y limit => if elapsedPs ≤ limit then markReachable s (x, y) else markUnreachable s (x, y)
    | _ => s)

/-! ### Spread circuits (R399, R447, R453) -/

/-- The spread entry of a circuit on a channel with its context; `out` for that of an FLO. -/
def circuitOn (s : State) (f circ : Nat) (out : Bool) : Option (Nat × Spread) :=
  (spreadsOn s f).find? fun x => x.2.circ = circ && (x.2.cred ≠ 0) = out

/-- The tokens of an HTOK payload (R440). -/
def htokTokens (tag : BitVec 14) (n : Nat) (bs : Bytes) : List Token :=
  (List.range n).map fun k =>
    { tag := tag, p := bit (byteAt bs (16 * k + 8)).toNat 0, data := BitVec.ofNat 64 (leAt bs (16 * k) 8) }

/-- HTOK (R399, R440, R453): tokens enter the buffer of an FLI. Tokens of another context are no work for its buffer: the
packet is refused, and their context takes the isolation fault (R24, log 45). -/
def execHtok (f : BitVec 8) (packet : Packet) (s : State) : Host.Outcome State Fault Refusal :=
  .next (receive s f.toNat 0x20 packet fun s p =>
    let v := p.arg.toNat
    let n := bits v 23 16
    match circuitOn s f.toNat (v % 16) false with
    | none => refuseInbound s
    | some (c, e) =>
      if bits v 15 8 ≠ e.epoch then bump s 0x2800 0xB
      else
        let run := (ctxAt s c).run
        let held := tabGet [] run.fli e.site
        let tag := if p.ctxv then p.tag else ctxTag s c
        if n = 0 || 64 < n || p.payload.length ≠ 16 * n then refuseInbound s
        else if tagCtx tag ≠ c then enterRecovering (refuseInbound s) (tagCtx tag) 0x0203
        else if 64 < held.length + n then enterRecovering (refuseInbound s) c 0x0203
        else
          setRun s c { run with fli := tabSet [] run.fli e.site (held ++ htokTokens tag n p.payload) })

/-- HCRED (R398, R399): the far end returns credits to an FLO. -/
def execHcred (f : BitVec 8) (packet : Packet) (s : State) : Host.Outcome State Fault Refusal :=
  .next (receive s f.toNat 0x21 packet fun s p =>
    let v := p.arg.toNat
    match circuitOn s f.toNat (v % 16) true with
    | none => refuseInbound s
    | some (c, e) =>
      if bits v 15 8 ≠ e.epoch then bump s 0x2800 0xB
      else
        let run := (ctxAt s c).run
        setRun s c { run with credits := tabSet 0 run.credits e.site (tabGet 0 run.credits e.site - bits v 23 16) })

/-! ### Beacons (R455–R457) -/

/-- A beacon or the beacon line takes a context into Recovering, with the entry 0x2C05; one that is recovering logs it as a
secondary cause (R490), and any other is unaffected (R456). -/
def beaconTakes (s : State) (c group source cause : Nat) : State :=
  if isLoaded s c then enterRecovering (sootCtx s c 0x2C05 (group + 65536 * source) cause) c cause
  else if ctxState s c = .recovering then enterRecovering s c cause
  else s

/-- BEACON (R456): every Open or Closed context of the group enters Recovering; no beacon is echoed. -/
def execBeacon (f : BitVec 8) (packet : Packet) (s : State) : Host.Outcome State Fault Refusal :=
  .next (receive s f.toNat 0x30 packet fun s p =>
    let g := p.arg.toNat % 65536
    let s := bump32 s 0x2A00 9
    if g = 0 then s
    else (allCtxs.filter fun c => val s 0x2A20 (c + 1) = g).foldl (fun s c => beaconTakes s c g 1 0x0207) s)

/-- FAULT_BEACON_LINE (R457): FAULT_BEACON_N has been held low. -/
def execFaultBeaconLine (heldNs : Nat) (s : State) : Host.Outcome State Fault Refusal :=
  .next (
    if heldNs < 100 then s
    else
      let s := bump32 s 0x2A00 0xA
      (allCtxs.filter fun c => bit (val s 0x2A00 0xB) c).foldl (fun s c => beaconTakes s c 0 2 0x0208) s)

/-! ### Probes (R312, R398, R454) -/

/-- The limit of a probe's round trip, in ps: that of a spread entry to the node, or that of the region that holds it. -/
def probeLimit (s : State) (d : BitVec 16 × BitVec 16) : Nat :=
  let ends := (heldConfigs s).flatMap fun x => x.2.spreads.filter fun e => e.x = d.1.toNat && e.y = d.2.toNat
  match ends.head? with
  | some e => 80000 + 2400 * e.hop
  | none =>
    match (validRegions s).find? fun r =>
        regionX r.2 ≤ d.1.toNat && d.1.toNat < regionX r.2 + regionNx r.2
          && regionY r.2 ≤ d.2.toNat && d.2.toNat < regionY r.2 + regionNy r.2 with
    | some r => 180000 + 1200 * regionHop r.2
    | none => 180000

/-- Whether a probe of a node is under way. -/
def probing (s : State) (d : BitVec 16 × BitVec 16) : Bool :=
  s.flue.chans.any fun x => (chanReqs x.2).any fun r => match r.purpose with | .probeTo a b _ => (a, b) = d | _ => false

/-- REACHABILITY_PROBE (R454): each unreachable destination is probed, on the first channel of the Mantel list (DESIGN
CHOICE, notes/assumptions/32). -/
def execReachabilityProbe (s : State) : Host.Outcome State Fault Refusal :=
  .next (s.flue.unreachable.foldl (fun s d =>
    match mantelChannel s 0 with
    | none => s
    | some f =>
      if probing s d then s
      else sendReq s f (pkt 0x04 d.1.toNat d.2.toNat none 0 []) (.probeTo d.1 d.2 (probeLimit s d))) s)

end Sys2Proof.Machine
end

