-- ==== Sys2Proof/Machine/PowerOps.lean ====
section
/-! DEFINITION. Power domains (18): what a domain loses when it leaves On and what is rewritten on its return, the changes of
its state, and its retirement. -/

namespace Sys2Proof.Machine

/-! ### Work in a domain (R45, R492, R550) -/

/-- The domains that an undecided message's program still has to pass, but for the Grate, feature stage and Chimney. -/
def midDomains (s : State) (x : Msg) : List Nat :=
  match x.kind with
  | .t => ensDomains (ensAt s x.ctx x.ens)
  | .s => ensDomains (ensAt s x.ctx x.ens) ++ (if x.awaitStep then (14 + x.lane / 4) :: storeDomains s x.place else [])
  | .h => match (if x.side = .incoming then decidingConfig s x.ctx else (firingConfig s x.ctx).map (·.2)) with
    | none => []
    | some g => programDomains g x.pindex

/-- Whether an admitted message without delivery is work in domain `d`. -/
def workIn (s : State) (x : Msg) (d : Nat) : Bool :=
  if d = 8 then !x.accessed
  else if d = 9 then !x.accessed || x.awaitStep
  else if d = 32 then true
  else x.record.isNone && (midDomains s x).contains d

/-- The replies that the Chimney holds are suppressed or, in transmission, are to be stomped. -/
def lossReplies (s : State) : State :=
  s.chim.replies.foldl (fun s x =>
    match replyAt s x.1 with
    | none => s
    | some r =>
      match r.state with
      | .waiting | .queued | .late => bump (suppress s x.1 r) (cb r.ctx 0x0C) 0x10
      | .sending => if r.commit = none then setReply s x.1 { r with torn := true } else s
      | .ended => s) s

/-- The admitted work in a domain receives no-send records (R492, R550), counted in Domain-loss no-sends. -/
def lossNoSends (s : State) (d : Nat) : State :=
  let s := if d = 32 then lossReplies s else s
  s.work.msgs.foldl (fun s x =>
    match msgAt s x.1 with
    | none => s
    | some m =>
      if openMsg m && workIn s m d && !(d = 32 && s.chim.replies.any fun r => match r.2 with | some y => y.msg = x.1 && y.state = .sending | none => false) then
        settleEns (noSend s x.1 (cb m.ctx 0x0C) 0x10) m.ctx
      else s) s

/-! ### What leaving On takes away (R559) -/

/-- Whether a domain retains anything while Banked (R544). -/
def retains (d : Nat) : Bool := 10 ≤ d && d < 32

/-- Running steps that a test names are discarded; their events are skipped. -/
def dropSteps (s : State) (p : OStep → Bool) : State :=
  ((allSteps s).filter fun x => x.2.running && p x.2).foldl (fun s x =>
    settleForks (progress (skipEvent (setStep s x.1 none) x.2.instr x.2.seq) x.2.ctx 3) x.2.ctx x.2.instr) s

/-- Sites of a configuration that a loss of column group `k` empties: those of every program with a site or hop in it. -/
def lostSites (g : HConfig) (k : Nat) : List Nat :=
  ((List.range g.progs.length).filter fun n => (programDomains g n).contains (groupDomain k)).flatMap (programSites g)

/-- A running configuration without the tokens of some of its sites and what their units hold of earlier firings. -/
def clearSites (r : HRun) (sites : List Nat) : HRun :=
  let keep (k : Nat) : Bool := !sites.contains k
  { r with
    queues := r.queues.filter (fun x => keep (x.1 / 4)), spill := r.spill.filter (fun x => keep (x.1 / 4))
    sums := r.sums.filter (fun x => keep x.1), taken := r.taken.filter (fun x => keep x.1)
    andP := r.andP.filter (fun x => keep x.1), emitted := r.emitted.filter (fun x => keep x.1)
    takes := r.takes.filter (fun x => keep x.1), block := r.block.filter (fun x => keep x.1)
    runAt := r.runAt.filter (fun x => keep x.1), runBase := r.runBase.filter (fun x => keep x.1)
    fins := r.fins.filter (fun x => keep x.1)
    credits := r.credits.filter (fun x => keep x.1), fli := r.fli.filter (fun x => keep x.1)
    parked := r.parked.filter (fun x => keep x.1), released := r.released.filter keep }

/-- Whether a byte of the units' memories lies in column group `k`. -/
def memInGroup (k : Nat) (x : Host.Cell) : Bool := siteGroup (x.1 / 16384) = k

/-- A running configuration without the MEM and SFU contents of column group `k` (R360, R366). -/
def clearMem (r : HRun) (k : Nat) : HRun := { r with mem := r.mem.filter fun x => !memInGroup k x }

/-- A running configuration as column group `k` comes back: the group's MEM and SFU contents are those of the image (R366), and
the sites that the group's loss emptied take their initial tokens (R340). -/
def refreshGroup (s : State) (c : Nat) (g : HConfig) (r : HRun) (k : Nat) : HRun :=
  let sites := lostSites g k
  let r := clearMem (clearSites r sites) k
  { r with
    queues := ((initialTokens g (ctxTag s c)).filter fun x => sites.contains (x.1 / 4)).foldl (fun t x => tabSet [] t x.1 x.2) r.queues
    mem := ((initialMem g).filter (memInGroup k)).foldl (fun t x => memWrite t x.1 x.2) r.mem }

/-- The tree memory of a Garnet quadrant is lost (R272): the ensembles with a tree in it wait for their records. -/
def loseTrees (s : State) (d : Nat) : State :=
  s.ctxs.foldl (fun s c => c.2.ens.foldl (fun s x =>
    let y := ensAt s c.1 x.1
    if y.place.any (fun q => sliceDomain q.1 = d) && !y.lost.contains d then setEns s c.1 x.1 { y with lost := d :: y.lost } else s) s) s

/-- Every tree record that lay in a quadrant is reloaded from the image of its context (R272). -/
def reloadTrees (s : State) (d : Nat) : State :=
  s.ctxs.foldl (fun s c => c.2.ens.foldl (fun s x =>
    let y := ensAt s c.1 x.1
    setEns s c.1 x.1 { y with lost := y.lost.filter (· != d) }) s) s

/-- A column group leaves On: every running configuration that uses it loses the work of the programs that pass it, and the
MEM and SFU contents of the group itself (R360, R366). -/
def loseGroup (s : State) (k : Nat) : State :=
  (heldConfigs s).foldl (fun s x =>
    if (configGroups x.2).contains k then
      let r := clearMem (clearSites (ctxAt s x.1).run (lostSites x.2 k)) k
      let gone (m : Nat) : Bool := match msgAt s m with | some y => y.delivered | none => true
      setRun s x.1 { r with open_ := (r.open_.map fun o => (o.1, o.2.filter fun m => !gone m)).filter fun o => !o.2.isEmpty }
    else s) s

/-- A channel goes Down with its half: the requests it had accepted fail, and nothing of the link is kept (R459). -/
def loseChannel (s : State) (f : Nat) : State :=
  let x := chanAt s f
  if x.state = .retired then s
  else
    let y := { Chan.reset with x := x.x, y := x.y, sent := x.sent, received := x.received, crcErrors := x.crcErrors,
                               replays := x.replays, reuse := x.reuse }
    (chanReqs x).foldl failReq (setChan s f y)

/-- The channels of a Flue half. -/
def halfChannels (d : Nat) : List Nat := (List.range 128).map (128 * (d - 33) + ·)

/-- What a domain loses when it leaves On: for good where it goes Cold or retains nothing (R559). -/
def loseContents (s : State) (d : Nat) (cold : Bool) : State :=
  if d < 8 then dropLink s d
  else if d = 9 then
    let s := dropSteps s fun _ => true
    { s with work := { s.work with rows := [], slots := [] } }
  else if 10 ≤ d && d < 14 then (if cold then loseTrees s d else s)
  else if 14 ≤ d && d < 18 then dropSteps s fun x => x.lane / 4 = d - 14
  else if 18 ≤ d && d < 24 then
    let s := dropSteps s fun x => x.place = 1
    if cold then { s with store := { s.store with localLost := true } } else s
  else if 24 ≤ d && d < 32 then loseGroup s (d - 24)
  else if d = 33 || d = 34 then noteFlue s ((halfChannels d).foldl loseChannel s)
  else s

/-- A domain that is On starts to leave it (R545): it carries no more work. Always-on never leaves On (R544). -/
def leaveOn (s : State) (d : Nat) (dest : DomState) : State :=
  let x := domAt s d
  if d ≠ 35 && x.state = .on && x.changing.isNone && !x.retired then
    let s := setDom s d { x with changing := some dest, queued := none, open_ := false, vdd := 0, windows := [],
                                 monitor := 0, clearLive := [], clearBreach := [], clearOn := [], lowerWait := 0 }
    loseContents s d (dest = .cold || !retains d)
  else s

/-! ### What is rewritten on the return (R559) -/

/-- The local caches are reset once every usable bank is On again, and the scratch slots and resend rings are cleared
(R332); a bank that is retired instead of coming back is waited for no longer. -/
def restoreLocal (s : State) : State :=
  if !s.store.localLost || !((usableBanks s).all fun b => domIsOn s (bankDomain b)) then s
  else
    let s := (s.store.dir.filter fun x => x.2.pl = 1).foldl (fun s x => resetCache s x.1) s
    let s := s.ctxs.foldl (fun s c =>
      setCtx s c.1 { ctxAt s c.1 with rollouts := [], resend := [] }) s
    { s with store := { s.store with localLost := false } }

/-- The parts of the configuration store that a Cold column group lost (R400): a slot with no part there is untouched, one that
holds the configuration of its context's image is rewritten from it, and any other becomes Empty. -/
def restoreGroup (s : State) (k : Nat) : State :=
  (List.range 16).foldl (fun s n =>
    match hslot s n with
    | none => s
    | some h =>
      match h.cfg with
      | none => s
      | some g =>
        if storeCharge g k = 0 || h.fromImage then s
        else
          let s := if h.state = .active || h.state = .draining then
              let r := (ctxAt s h.owner).run
              setRun ((openRecords r).foldl (fun s m => noSend s m (cb h.owner 0x0C) 0x10) s) h.owner { HRun.reset with swap := r.swap, waiting := r.waiting }
            else s
          soot (setHslot s n none) 0x2802 (some (ctxTag s h.owner)) n k) s

/-- Column group `k` is On again: every running configuration that uses it is refreshed there (R366). -/
def restoreMem (s : State) (k : Nat) : State :=
  (heldConfigs s).foldl (fun s x =>
    if (configGroups x.2).contains k then setRun s x.1 (refreshGroup s x.1 x.2 (ctxAt s x.1).run k) else s) s

/-- Group `g` holds intact copies again (R304). -/
def restoreWeights (s : State) (g : Nat) : State :=
  s.ctxs.foldl (fun s c =>
    let x := ctxAt s c.1
    setCtx s c.1 { x with broken := x.broken.filter (· != g) }) s

/-- What is rewritten before domain `d`, back from Cold, reopens. -/
def restoreCold (s : State) (d : Nat) : State :=
  if 10 ≤ d && d < 14 then reloadTrees s d
  else if 14 ≤ d && d < 18 then restoreWeights s (d - 14)
  else if 24 ≤ d && d < 32 then noteFlue s (restoreGroup s (d - 24))
  else if d = 32 then s.ctxs.foldl (fun s c => setCtx s c.1 { ctxAt s c.1 with damaged := [] }) s
  else s

/-- What follows a domain's return to On: a port starts its link, channels train, local space is restored. -/
def startOn (s : State) (d : Nat) : State :=
  if d < 8 then linkStart s d
  else if 18 ≤ d && d < 24 then restoreLocal s
  else if 24 ≤ d && d < 32 then restoreMem s (d - 24)
  else if d = 33 || d = 34 then
    noteFlue s ((halfChannels d).foldl (fun s f =>
      let x := chanAt s f
      if x.state = .down then setChan s f { x with state := .training } else s) s)
  else s

/-- A domain's change from `from` to `to` is logged (R569). -/
def logChange (s : State) (d : Nat) (frm dest : DomState) : State :=
  soot s 0x2D04 none d (stateCode frm + 256 * stateCode dest)

/-- Whether a domain that comes from a state comes as from Cold (R545). -/
def fromCold (d : Nat) (frm : DomState) : Bool := frm = .cold || !retains d

/-- Domain `d` is On (R71, R545, R546, R555): its contents are rewritten, and a gauged domain reopens after its clear
readings. A partition cycle that ends so is counted. -/
def enterOn (s : State) (d : Nat) (frm : DomState) : State :=
  let x := domAt s d
  let s := setDom s d { x with
    state := .on, changing := none, queued := none, vdd := if gauged d then 800 else 750, open_ := !gauged d,
    lowerWait := 0, ceiling := false, windows := [], clearOn := [], cycle := false,
    cycles := if x.cycle then (x.cycles + 1) % 2 ^ 32 else x.cycles }
  let s := if x.cycle then bump32 s 0x2C10 4 else s
  let s := logChange s d frm .on
  startOn (if fromCold d frm then restoreCold s d else s) d

/-! ### Retirement of a domain (R491, R493) -/

/-- The units of a retired domain are retired with it (R493). -/
def retireUnits (s : State) (d : Nat) : State :=
  if 10 ≤ d && d < 14 then (List.range 128).foldl (fun s k => retireSlice s (128 * (d - 10) + k)) s
  else if 14 ≤ d && d < 18 then (List.range 4).foldl (fun s k => retireLane s (4 * (d - 14) + k)) s
  else if 18 ≤ d && d < 24 then restoreLocal (retireBank s (d - 18))
  else if 24 ≤ d && d < 32 then (List.range 8).foldl (fun s k => loseColumn s (8 * (d - 24) + k)) s
  else if d = 33 || d = 34 then (halfChannels d).foldl (fun s f => retireChannel s f 3) s
  else s

/-- A domain is retired for good until power loss (R491, R493, R497, R569): loaded contexts that use it enter Recovering
(R483), and its units are retired. -/
def retireDomain (s : State) (d : Nat) : State :=
  if d = 35 || (domAt s d).retired then s
  else
    let users := allCtxs.filter fun c => isLoaded s c && (domainUse s c).contains d
    let s := leaveOn s d .cold
    let s := if d < 8 then retirePort s d else logRetired s d
    let s := setDom s d { domAt s d with
      state := .cold, changing := none, queued := none, open_ := false, vdd := 0, cycle := false, retired := true }
    let s := if d < 8 then s
      else
        let s := retireUnits s d
        if 18 ≤ d && d < 24 then s else noteRetired s 8 d 1
    users.foldl (fun s c => enterRecovering s c 0x0206) s

/-! ### Changes (R545, R547) -/

/-- Whether a teardown has a partition cycle of domain `d` under way. -/
def cycling (s : State) (d : Nat) : Bool :=
  s.ctxs.any fun c => match c.2.td with | some t => t.escalations.any fun e => e.domain = d && e.busy | none => false

/-- A change under way ends (R545); a request that waited for it is then carried out. A domain that comes from Cold and
fails its self-test is retired, but for an escalation, which goes on by its own steps. -/
def endChange (s : State) (d : Nat) (selfTestOk : Bool) : State :=
  let x := domAt s d
  match x.changing with
  | none => s
  | some .on =>
    if fromCold d x.state && !selfTestOk then (if cycling s d then s else retireDomain s d)
    else
      let s := enterOn s d x.state
      match x.queued with
      | some .cold =>
        let s := leaveOn s d .cold
        setDom s d { domAt s d with cycle := true }
      | some .banked => leaveOn s d .banked
      | _ => s
  | some dest =>
    let s := logChange (setDom s d { x with state := dest, changing := none, queued := none }) d x.state dest
    if x.queued = some .on then requestOn s d else s

/-- A domain's policy is applied (R547): an unused domain is banked, or goes Cold. -/
def applyPolicy (s : State) (d : Nat) : State :=
  let p := (domAt s d).policy
  if p = 0 || domInUse s d then s else leaveOn s d (if p = 1 then .banked else .cold)

/-- Domain command 3, or 2: a domain that is changing does it afterwards; a Banked one passes through On to go Cold. -/
def commandOff (s : State) (d : Nat) (dest : DomState) : State :=
  let x := domAt s d
  match x.changing, x.state with
  | some y, _ => if y = dest then s else setDom s d { x with queued := some dest }
  | none, .on =>
    let s := leaveOn s d dest
    if dest = .cold then setDom s d { domAt s d with cycle := true } else s
  | none, .banked => if dest = .cold then setDom s d { x with changing := some .on, queued := some .cold } else s
  | none, .cold => s

/-- The rules of 0x2D20:04 (R548, R589). -/
def commandDomain (d v : Nat) (s : State) : Ans :=
  let x := domAt s d
  if d = 35 && v = 1 then .ok s
  else if d = 35 || x.retired then .error abState
  else if v = 1 then (if x.thermal then .error abState else .ok (requestOn s d))
  else if domInUse s d then .error abState
  else .ok (commandOff s d (if v = 2 then .banked else .cold))

/-! ### Thermal shutdown (R550, R552) -/

/-- A thermal shutdown of domain `d`: it goes Cold, and its admitted work receives no-send records. -/
def shutDown (s : State) (d : Nat) : State :=
  let x := domAt s d
  if x.retired || x.thermal || d = 35 then s
  else
    let s := setDom s d { x with thermal := true, shutdowns := (x.shutdowns + 1) % 2 ^ 32, hotReads := 0 }
    let s := lossNoSends (soot s 0x2D03 none (d + 256) (unsign 64 x.tj)) d
    let s := leaveOn s d .cold
    let y := domAt s d
    match y.changing, y.state with
    | none, .banked => setDom s d { y with changing := some .cold, queued := none }
    | none, _ => s
    | some _, _ => setDom s d { y with changing := some .cold, queued := none }

end Sys2Proof.Machine
end

