-- ==== Sys2Proof/Machine/Power.lean ====
section
/-! DEFINITION. The commands of power and speed (02, 16, 18): gauges and droop flags, the adaptive supply, the thermal sensors,
the power cap, domain commands and changes, and the escalation of a teardown. -/

namespace Sys2Proof.Machine

/-! ### Live trip, corner breach and their clears (R42, R43, R71–R73) -/

/-- D_reg and G in thousandths (R75). -/
def dReg (s : State) : Nat := val s 0x2380 2
def guardG (s : State) : Nat := val s 0x2380 3

/-- An entry 0x2302 (R73, R504). -/
def logTrip (s : State) (d gauge reading : Nat) (breach clear : Bool) : State :=
  soot s 0x2302 none (d + (if breach then 256 else 0) + (if clear then 512 else 0)) (gauge + 65536 * (reading % 65536))

/-- Domain `d` enters live trip. -/
def enterTrip (s : State) (d gauge reading : Nat) : State :=
  let s := setDom s d { domAt s d with clearLive := [] }
  if s.power.liveTrip.contains d then s
  else
    let s := { s with power := { s.power with liveTrip := s.power.liveTrip ++ [d] } }
    bump32 (logTrip s d gauge reading false false) 0x2380 6

/-- Domain `d` enters corner breach, with its EMCY (R525). -/
def enterBreach (s : State) (d gauge reading : Nat) : State :=
  let s := setDom s d { domAt s d with clearBreach := [] }
  if s.power.breach.contains d then s
  else
    let s := { s with power := { s.power with breach := s.power.breach ++ [d] } }
    emcy (bump32 (logTrip s d gauge reading true false) 0x2380 7) 0x4210 [BitVec.ofNat 8 d]

/-- What a D measured by a gauge of domain `d` trips. -/
def tripOn (s : State) (d gauge reading : Nat) : State :=
  let s := if dReg s * (2000 + guardG s) < 2000 * reading then enterTrip s d gauge reading else s
  if 1000 < reading then enterBreach s d gauge reading else s

/-- One more clear reading of a gauge. -/
def countClear (t : Tab Nat) (gauge : Nat) : Tab Nat := tabSet 0 t gauge (tabGet 0 t gauge + 1)

/-- Whether every gauge of domain `d` has given the consecutive clear readings of 0x2380:08 (R71). -/
def clearsDone (s : State) (d : Nat) (t : Tab Nat) : Bool :=
  (domainGauges d).all fun g => decide (val s 0x2380 8 ≤ tabGet 0 t g)

/-- A condition is over: the supply ceiling may be logged again, and its EMCY is cleared (R72, R525). -/
def endCeiling (s : State) (d : Nat) : State :=
  let x := domAt s d
  if !x.ceiling || s.power.liveTrip.contains d || s.power.breach.contains d then s
  else
    let s := setDom s d { x with ceiling := false }
    if (List.range 36).any fun k => (domAt s k).ceiling then s else emcy s 0 (toLe 2 0x3120)

/-- A reading that leaves live trip on its way: the count goes on, starts afresh, or ends the trip. -/
def clearTrip (s : State) (d gauge reading : Nat) : State :=
  if !s.power.liveTrip.contains d then s
  else
    let x := domAt s d
    let n := countClear x.clearLive gauge
    if dReg s * (4000 + guardG s) < 4000 * reading then setDom s d { x with clearLive := [] }
    else if !clearsDone s d n then setDom s d { x with clearLive := n }
    else
      let s := setDom s d { x with clearLive := [] }
      let s := { s with power := { s.power with liveTrip := s.power.liveTrip.filter (· != d) } }
      endCeiling (logTrip s d gauge reading false true) d

/-- The same for corner breach; the last breach that clears clears the EMCY. -/
def clearBreach (s : State) (d gauge reading : Nat) : State :=
  if !s.power.breach.contains d then s
  else
    let x := domAt s d
    let n := countClear x.clearBreach gauge
    if 980 < reading || 930 < x.tj || x.monitor < 600 then setDom s d { x with clearBreach := [] }
    else if !clearsDone s d n then setDom s d { x with clearBreach := n }
    else
      let s := setDom s d { x with clearBreach := [] }
      let s := { s with power := { s.power with breach := s.power.breach.filter (· != d) } }
      let s := logTrip s d gauge reading true true
      let s := if s.power.breach.isEmpty then emcy s 0 (toLe 2 0x4210) else s
      endCeiling s d

/-- A domain that has come On reopens after its readings (R71). -/
def clearOpen (s : State) (d gauge : Nat) : State :=
  let x := domAt s d
  if x.open_ then s
  else
    let n := countClear x.clearOn gauge
    setDom s d { x with clearOn := n, open_ := clearsDone s d n }

/-- D of a window in which a gauge has counted `n` ring cycles, in thousandths (R42). What R42 does not state is free: how a
quotient between two thousandths is rounded, and the D of one that 16 bits do not hold (notes/assumptions/44). -/
def gaugeRatio (s : State) (n : Nat) : Nat :=
  let nc := s.sys.cornerCount
  let q := 1000 * nc / n
  let r := if q * n = 1000 * nc then q else if Config.gaugeRoundsUp nc n then q + 1 else q
  if n = 0 || 65536 ≤ r then (Config.gaugeBeyond nc n).toNat else r

/-- The VDD_CORE monitor of a domain reads `vdd` mV: below 0.600 V the domain is in corner breach (R71). -/
def readMonitor (s : State) (d gauge reading vdd : Nat) : State :=
  let s := setDom s d { domAt s d with monitor := vdd }
  if vdd < 600 then enterBreach s d gauge reading else s

/-- GAUGE_WINDOW (R42, R71, R76): the 1 µs window of a gauge ends, in which it has counted ring cycles; a gauge of a
domain that is On publishes D. The domain's VDD_CORE monitor is read with it (DESIGN CHOICE: R71 names no instant,
notes/assumptions/44). -/
def execGaugeWindow (gauge : Nat) (read : GaugeRead) (s : State) : Host.Outcome State Fault Refusal :=
  let d := gaugeDomain gauge
  let r := gaugeRatio s read.count
  if 96 ≤ gauge then .fault .noSuchUnit
  else .next (
    if !domIsOn s d then s
    else
      let x := domAt s d
      let s := { s with power := { s.power with gauges := tabSet 0 s.power.gauges gauge r } }
      let s := setDom s d { x with windows := (r :: x.windows).take (20 * (domainGauges d).length) }
      clearOpen (clearBreach (clearTrip (readMonitor (tripOn s d gauge r) d gauge r read.vdd) d gauge r) d gauge r) d gauge)

/-- DROOP_FLAG (R43, R71): one ring period has exceeded a threshold, its ratio given in thousandths. -/
def execDroopFlag (gauge : Nat) (ratio : BitVec 16) (s : State) : Host.Outcome State Fault Refusal :=
  if 96 ≤ gauge then .fault .noSuchUnit
  else .next (if domIsOn s (gaugeDomain gauge) then tripOn s (gaugeDomain gauge) gauge ratio.toNat else s)

/-- Raises a supply by one step of 10 mV, up to 0.80 V (R543, R549). -/
def raiseVdd (s : State) (d : Nat) : State :=
  let x := domAt s d
  setDom s d { x with vdd := min 800 (x.vdd + 10) }

/-- SUPPLY_EVALUATION (R72, R549). -/
def execSupplyEvaluation (domain : Nat) (s : State) : Host.Outcome State Fault Refusal :=
  let d := domain
  if 36 ≤ d then .fault .noSuchUnit
  else .next (
    let x := domAt s d
    if !gauged d || !domIsOn s d || x.windows.isEmpty then s
    else
      let s := setDom s d { x with lowerWait := x.lowerWait - 1 }
      let dmax := x.windows.foldl max 0
      if s.power.liveTrip.contains d || s.power.breach.contains d then
        if x.vdd < 800 then raiseVdd s d
        else if x.ceiling then s
        else emcy (soot (setDom s d { domAt s d with ceiling := true }) 0x2303 none d x.vdd) 0x3120 [BitVec.ofNat 8 d]
      else if dReg s * (8000 + guardG s) < 8000 * dmax then raiseVdd s d
      else if 8000 * dmax < dReg s * (8000 - guardG s) && x.lowerWait ≤ 1 && 600 < x.vdd then
        setDom s d { domAt s d with vdd := x.vdd - 10, lowerWait := 50 }
      else s)

/-! ### Domain commands and changes (R545, R547, R548, R568) -/

/-- The rules of 0x2D20:04 for the selected domain. -/
def writeDomainCommand (q : Requester) (data : Bytes) (s : State) : Ans :=
  commandDomain (selected s q 0x2D20 1) (leNat data) s

/-- DOMAIN_ON (R548, R589). -/
def execDomainOn (q : Requester) (s : State) : Host.Outcome State Fault Refusal :=
  .next (request s q 0x2D20 4 [1] (writeDomainCommand q [1]))

/-- DOMAIN_BANK (R548). -/
def execDomainBank (q : Requester) (s : State) : Host.Outcome State Fault Refusal :=
  .next (request s q 0x2D20 4 [2] (writeDomainCommand q [2]))

/-- DOMAIN_COLD (R548). -/
def execDomainCold (q : Requester) (s : State) : Host.Outcome State Fault Refusal :=
  .next (request s q 0x2D20 4 [3] (writeDomainCommand q [3]))

/-- DOMAIN_TRANSITION_DONE (R545, R555, R569). -/
def execDomainTransitionDone (domain : Nat) (selfTestOk : Bool) (s : State) : Host.Outcome State Fault Refusal :=
  if 36 ≤ domain then .fault .noSuchUnit else .next (endChange s domain selfTestOk)

/-- GATE_DELAY_EXPIRED (R547): a domain has been unused for the Gate delay. -/
def execGateDelayExpired (domain : Nat) (s : State) : Host.Outcome State Fault Refusal :=
  if 36 ≤ domain then .fault .noSuchUnit else .next (applyPolicy s domain)

/-- POWER_SAMPLE (R553, R567, R568): the 1 ms averages of the block and of its domains, in 0.1 W. -/
def execPowerSample (average : Nat) (domains : List Nat) (s : State) : Host.Outcome State Fault Refusal :=
  let cap := val s 0x2D00 4
  .next (
    let s := put s 0x2D00 3 (average % 2 ^ 32)
    let s := (domains.take 36).zipIdx.foldl (fun s x => setDom s x.2 { domAt s x.2 with power := x.1 % 2 ^ 32 }) s
    if average ≤ 10 * cap then s
    else
      let s := (List.range 36).foldl applyPolicy s
      bump32 (soot s 0x2D05 none average cap) 0x2D00 5)

/-! ### Escalation (R491, R492, R552) -/

/-- Starts a partition cycle of domain `d`; one that a thermal shutdown meets is held until that clears. -/
def startCycle (s : State) (d : Nat) : State :=
  let s := lossNoSends s d
  let s := leaveOn s d .cold
  let x := domAt s d
  if x.thermal then setDom s d { x with cycle := true }
  else match x.changing with
    | some .on => setDom s d { x with cycle := true }
    | some _ => setDom s d { x with cycle := true, queued := some .on }
    | none => requestOn (setDom s d { x with cycle := true }) d

/-- Writes an escalation of a context's teardown. -/
def setEscalation (s : State) (c : Nat) (e : Escalation) : State :=
  let x := ctxAt s c
  setCtx s c { x with td := x.td.map fun t =>
    { t with escalations := t.escalations.filter (fun y => y.domain ≠ e.domain) ++ [e] } }

/-- An escalation takes its next step, with its entry 0x2C03: whether that step is the retirement. -/
def nextStep (s : State) (c : Nat) (e : Escalation) : Bool × State :=
  let step := e.step + 1
  let s := sootCtx s c 0x2C03 (e.domain + 256 * step) e.engine
  let s := if step = 1 then bump32 s 0x2C10 3 else s
  (decide (3 ≤ step), setEscalation s c { e with step := step, busy := decide (step < 3) })

/-- PURGE_TIMEOUT (R484, R491): an engine has not reported its purge, and the domain that holds the work is escalated. -/
def execPurgeTimeout (c : BitVec 6) (engine : BitVec 3) (domain : Nat) (s : State) : Host.Outcome State Fault Refusal :=
  let c := c.toNat
  if 36 ≤ domain || !engineOk engine then .fault .noSuchUnit
  else .next (
    match (ctxAt s c).td with
    | none => s
    | some t =>
      let e := (t.escalations.find? fun e => e.domain = domain).getD
        { domain := domain, engine := engine.toNat, step := 0, busy := false }
      if t.phase ≠ .purging || ctxState s c = .loading || domain = 35 || (domAt s domain).retired || e.busy then s
      else
        let (retire, s) := nextStep s c { e with engine := engine.toNat }
        if retire then retireDomain s domain else startCycle s domain)

/-- PARTITION_CYCLE_DONE (R491, R552): the cycle of a domain ends, its self-test passed or not and the purges reported or
not; the teardowns that wait for it resume at step 3, or take their next step. -/
def execPartitionCycleDone (domain : Nat) (selfTestOk purged : Bool) (s : State) : Host.Outcome State Fault Refusal :=
  let d := domain
  if 36 ≤ d then .fault .noSuchUnit
  else .next (
    if !cycling s d || (domAt s d).thermal then s
    else
      let s := if (domAt s d).changing = some .cold then endChange s d true else s
      let s := if selfTestOk then endChange s d true else s
      let waiting := s.ctxs.filterMap fun c =>
        match c.2.td with
        | some t => (t.escalations.find? fun e => e.domain = d && e.busy).map fun e => (c.1, e)
        | none => none
      if selfTestOk && purged then
        waiting.foldl (fun s x => setEscalation s x.1 { x.2 with busy := false }) s
      else
        let (retire, s) := waiting.foldl (fun (a : Bool × State) x =>
          let r := nextStep a.2 x.1 x.2
          (a.1 || r.1, r.2)) (false, s)
        if retire then
          waiting.foldl (fun s x => setEscalation s x.1 { x.2 with step := 3, busy := false }) (retireDomain s d)
        else startCycle s d)

end Sys2Proof.Machine
end

