-- ==== Sys2Proof/Machine/Resets.lean ====
section
/-! DEFINITION. Resets and start-up (18): the P values, warm reset and power loss, the self-test, the warm sequence, and the
thermal sensors. -/

namespace Sys2Proof.Machine

/-! ### P values (R517, R554) -/

/-- The key of a P value: index, subindex and selection. -/
def PVal.key (v : PVal) : Nat × Nat × Nat := (v.index, v.sub, v.sel)

/-- A P value takes its place in a list of stored values. -/
def storeP (l : List PVal) (v : PVal) : List PVal := l.filter (fun x => x.key ≠ v.key) ++ [v]

/-- The entries of a gate control list, 8 bytes each (R115): W0 holds OP and GATES, W1 INTERVAL. -/
def readGateEntry (b : Bytes) : Option GateEntry :=
  if (byteAt b 3).toNat ≤ 2 && zeroAt b 1 2 then
    some { op := (byteAt b 3).toNat, gates := byteAt b 0, interval := leAt b 4 4 }
  else none

/-- A gate control list of at most 256 entries. -/
def readGateList (b : Bytes) : Option (List GateEntry) :=
  if b.length % 8 = 0 && b.length ≤ 2048 then readRecords readGateEntry 8 (b.length / 8) b else none

/-- The bytes of a gate control list. -/
def gateListBytes (l : List GateEntry) : Bytes :=
  l.flatMap fun e => [e.gates, 0, 0, BitVec.ofNat 8 e.op] ++ toLe 4 e.interval

/-- A P object takes a stored value, or its default where the store holds none. -/
def applyP (s : State) (k : Nat × Nat × Nat) (data : Option Bytes) : State :=
  let (i, sub, sel) := k
  let v := leNat (data.getD [])
  if 0x2120 ≤ i && i < 0x2128 && sub = 2 then setFilter s (i - 0x2120) sel (BitVec.ofNat 256 v)
  else if 0x2130 ≤ i && i < 0x2138 && sub = 3 then
    setPort s (i - 0x2130) { portAt s (i - 0x2130) with adminList := (readGateList (data.getD [])).getD [] }
  else if i = 0x2700 && sub = 8 then setRegion s sel (BitVec.ofNat 256 v &&& ~~~(6 : BitVec 256))
  else if i = 0x2010 && sub = 0x11 then
    { s with mgmt := { s.mgmt with grants := tabSet 0 s.mgmt.grants sel (BitVec.ofNat 128 v) } }
  else if i = 0x2D20 && sub = 3 then
    setDom s sel { domAt s sel with policy := if data.isSome then v else (domDefault sel).policy }
  else { s with objs := match data with
    | none => tabErase s.objs (objKey i sub)
    | some _ => tabSet (match findRow i sub with | none => 0 | some r => rowDefault r i sub) s.objs (objKey i sub) v }

/-- The stored P values are applied, and a value that the store never took gives way to the one it holds (R517). -/
def applyStored (s : State) : State :=
  let stored (k : Nat × Nat × Nat) : Option Bytes := (s.mgmt.pStore.find? fun x => x.key = k).map (·.data)
  let s := s.mgmt.pLost.foldl (fun s k => applyP s k (stored k)) s
  let s := s.mgmt.pStore.foldl (fun s v => applyP s v.key (some v.data)) s
  { s with mgmt := { s.mgmt with pLost := [] } }

/-- P_VALUE_STORE_DONE (R517): the oldest transfer to the wafer controller's store ends, with its value taken or not. -/
def execPValueStoreDone (stored : Bool) (s : State) : Host.Outcome State Fault Refusal :=
  .next (
    match s.mgmt.pSending with
    | [] => s
    | v :: rest =>
      let lost := s.mgmt.pLost.filter (· ≠ v.key)
      if stored then
        { s with mgmt := { s.mgmt with pSending := rest, pStore := storeP s.mgmt.pStore v, pLost := lost } }
      else
        soot { s with mgmt := { s.mgmt with pSending := rest, pLost := lost ++ [v.key] } } 0x2D01 none (256 * v.index + v.sub) 0)

/-- LOG_MILLISECOND_END (R505). -/
def execLogMillisecondEnd (s : State) : Host.Outcome State Fault Refusal :=
  .next (if logMillisecond s = s.recov.logMs then s else closeMillisecond s)

/-! ### Warm reset (R554–R556, R560) -/

/-- Links that are up count their link down event, and a reply in transmission as lost with its link; no entry is written
for it (R556 step 1). -/
def resetLinks (s : State) : State :=
  allPorts.foldl (fun s p =>
    let x := portAt s p
    if linkUp x then x.sending.foldl (fun s _ => bump s (0x2110 + p) 0x13) (bump32 s (0x2110 + p) 0x14) else s) s

/-- Domains 0–34 go Cold at once, each change logged (R556, R569). A thermal shutdown holds on (DEDUCED,
notes/assumptions/36). -/
def coldDomains (s : State) : State :=
  (List.range 35).foldl (fun s d =>
    let x := domAt s d
    let s := if x.state = .cold || x.retired then s else logChange s d x.state .cold
    setDom s d { domDefault d with
      retired := x.retired, tj := x.tj, policy := x.policy, cycles := x.cycles, shutdowns := x.shutdowns,
      thermal := x.thermal, warned := x.warned, hotReads := x.hotReads }) s

/-- Whether an object's register is kept through a warm reset: retention P or W (R554). -/
def keptWarm (key : Nat) : Bool :=
  match findRow (key / 256) (key % 256) with
  | none => false
  | some r => r.ret == .p || r.ret == .w

/-- What a port keeps: its administrative gate list, the filter entries that the integrator wrote, and their hit counts. -/
def keptPort (x : Port) : Port :=
  { Port.reset with
    adminList := x.adminList, hits := x.hits
    filters := x.filters.filter fun f => bits (filterWord f.2 0) 30 29 = 2 }

/-- What a channel keeps: its retirement, its node and its counters. -/
def keptChan (x : Chan) : Chan :=
  { Chan.reset with
    state := if x.state = .retired then .retired else .down
    x := x.x, y := x.y, sent := x.sent, received := x.received, crcErrors := x.crcErrors, replays := x.replays }

/-- What management keeps: grants, the P values with those under way, and the retirements that stand as a condition. -/
def keptMgmt (m : Mgmt) : Mgmt :=
  { Mgmt.reset with
    grants := m.grants, conditions := m.conditions.filter (fun c => c = 0x5000), tapInstr := m.tapInstr, tapLast := m.tapLast
    pStore := m.pSending.foldl storeP m.pStore, pLost := m.pLost.filter fun k => !m.pSending.any fun v => v.key = k }

/-- All work ends, every context is Free with its generation kept, and what R560 does not keep is gone; the block is at the
start of the warm sequence. -/
def endWork (s : State) : State :=
  let s := coldDomains (resetLinks s)
  let noPower : Power := { Power.reset with domains := s.power.domains }
  { s with
    objs := s.objs.filter fun x => keptWarm x.1
    selects := []
    quartz := { s.quartz with ptp := [], pulses := s.quartz.pulses.map (fun x => (x.1, { x.2 with next := none })), captures := [] }
    net := { Net.reset with ports := s.net.ports.map (fun x => (x.1, keptPort x.2)), sram := s.net.sram }
    work := Work.reset
    ctxs := []
    store := { Store.reset with
      regions := s.store.regions.map (fun x => (x.1, regionStored x.2)), retiredRows := s.store.retiredRows }
    grid := { Grid.reset with retired := s.grid.retired }
    chim := Chim.reset
    flue := { Flue.reset with chans := s.flue.chans.map fun x => (x.1, keptChan x.2) }
    ctr := { s.ctr with requests := [] }
    mgmt := keptMgmt s.mgmt
    power := noPower
    sys := { s.sys with boot := .cold } }

/-- A block warm reset with its cause (R555, R556, R567). -/
def warmReset (s : State) (cause : Nat) : State :=
  let s := endWork s
  let at_ : List Nat := (List.range 4).map fun n => baseE (baseAt s n)
  put (bump32 { s with sys := { s.sys with warmAt := at_ } } 0x2001 6) 0x2D00 2 cause

/-- Whether firmware runs: from step 3 of R563 on. -/
def firmwareRuns (s : State) : Bool := s.sys.boot = .starting || s.sys.boot = .running

/-- WATCHDOG_EXPIRED (R494): the block dump is written, and a warm reset starts. -/
def execWatchdogExpired (s : State) : Host.Outcome State Fault Refusal :=
  .next (if firmwareRuns s then warmReset (bump32 (writeBlockDump s) 0x2C10 6) 2 else s)

/-- STOKER_FAULT (R494): an uncorrectable ECC error of the Stoker's memories or a residue mismatch of its datapath. -/
def execStokerFault (s : State) : Host.Outcome State Fault Refusal :=
  .next (if firmwareRuns s then warmReset (bump32 (writeBlockDump s) 0x2C10 6) 3 else s)

/-- Reset command 1. -/
def commandReset (s : State) : Ans := .ok (warmReset s 4)

/-- WARM_RESET (R556, R567). -/
def execWarmReset (q : Requester) (s : State) : Host.Outcome State Fault Refusal :=
  .next (request s q 0x2D00 1 [1] commandReset)

/-- Reset command 2 (R557): the container of KIND 5 in the staging area is read and verified before the reset begins. A
staging area in use, or one that cannot be read, refuses it (DEDUCED, notes/assumptions/36). -/
def commandUpdate (container : Option Bytes) (s : State) : Ans :=
  match container with
  | none => .error abState
  | some bs =>
    if !stagingFree s then .error abState
    else match openBox s.sys.keyHash 5 0xFF (val s 0x2020 3) bs with
      | .error .format => .error abRange
      | .error .key => .error abSign
      | .ok _ =>
        let s := warmReset s 5
        .ok { s with sys := { s.sys with firmware := bs } }

/-- WARM_RESET_WITH_UPDATE (R557). -/
def execWarmResetWithUpdate (q : Requester) (container : Option Bytes) (s : State) : Host.Outcome State Fault Refusal :=
  .next (request s q 0x2D00 1 [2] (commandUpdate container))

/-- BLK_RST (R555, R565, R575): low for 1 µs or more. During the warm sequence it starts again at step 1; a block held in
reset stays there. -/
def execBlkRst (lowNs : Nat) (s : State) : Host.Outcome State Fault Refusal :=
  .next (
    if lowNs < 1000 then s
    else match s.sys.boot with
      | .running => warmReset s 1
      | .starting => endWork s
      | .firmware => { s with sys := { s.sys with boot := .cold } }
      | .cold => s
      | .held => s
      | .hot => s)

/-! ### Power (R555, R558, R561, R562) -/

/-- POWER_LOSS (R555, R558): PWR_GOOD low for 1 µs or more. The wafer controller keeps the P values it has taken and those on
their way; the block's identity is its own. -/
def execPowerLoss (lowNs : Nat) (s : State) : Host.Outcome State Fault Refusal :=
  let r := State.reset
  .next (
    if lowNs < 1000 then s
    else { r with
      pending := s.pending
      sys := { r.sys with
        siteX := s.sys.siteX, siteY := s.sys.siteY, serial := s.sys.serial, serialText := s.sys.serialText,
        revision := s.sys.revision, fresh := s.sys.fresh, out := s.sys.out }
      mgmt := { r.mgmt with pStore := s.mgmt.pSending.foldl storeP s.mgmt.pStore } })

/-- The domain of a unit, by the type codes of entry 0x2C04 (R508, R544). -/
def unitDomain (type index : Nat) : Nat :=
  match type with
  | 1 => groupDomain (siteGroup index)
  | 2 => sliceDomain index
  | 3 => 14 + index / 4
  | 4 => bankDomain (index / 8192)
  | 5 => chanDomain index
  | 6 => index
  | 7 => bankDomain index
  | _ => index

/-- A unit that failed its self-test is retired (R495, R562); numbers that no unit has are passed over. -/
def retireUnit (s : State) (u : BitVec 8 × Nat) : State :=
  let n := u.2
  match u.1.toNat with
  | 1 => if n < 3072 then retireSite s n else s
  | 2 => if n < 512 then retireSlice s n else s
  | 3 => if n < 16 then retireLane s n else s
  | 4 => if n < 49152 then retireRow s (n / 8192) (n % 8192) [] else s
  | 5 => if n < 256 then retireChannel s n 3 else s
  | 6 => if n < 8 then retirePort s n else s
  | 7 => if n < 6 then retireBank s n else s
  | _ => s

/-- The self-test result of domain `d` is logged (R562, R569). -/
def logSelfTest (units : List (BitVec 8 × Nat)) (domains : List Nat) (s : State) (d : Nat) : State :=
  let n := (units.eraseDups.filter fun u => 1 ≤ u.1 && u.1 ≤ 7 && unitDomain u.1.toNat u.2 = d).length
  soot s 0x2D06 none d (n + if domains.contains d then 65536 else 0)

/-- POWER_ON (R561, R562): PWR_GOOD has risen and BLK_RST_N is released. The key hash is locked, and self-test runs; the
always-on domain's failure leaves the block in reset. -/
def execPowerOn (keyHash : Bytes) (failedUnits : List (BitVec 8 × Nat)) (failedDomains : List Nat) (repairs : Nat) (s : State) :
    Host.Outcome State Fault Refusal :=
  .next (
    if s.sys.boot ≠ .held then s
    else
      let s := { s with sys := { s.sys with keyHash := if s.sys.keyHash.isEmpty then keyHash else s.sys.keyHash } }
      if failedDomains.contains 35 then emit s .bootFault
      else
        let s := put (put s 0x2D00 2 0) 0x2D00 8 (repairs % 2 ^ 32)
        let s := failedUnits.foldl retireUnit s
        let s := (failedDomains.filter (· < 35)).foldl retireDomain s
        let s := (List.range 35).foldl (logSelfTest failedUnits failedDomains) s
        { s with sys := { s.sys with boot := .cold } })

/-! ### The warm sequence (R563, R564) -/

/-- The NMT state is Pre-operational, and the boot-up message is sent (R523, R524). -/
def bootUp (s : State) : State :=
  let s := { s with mgmt := { s.mgmt with nmt := .preOperational, nodeId := val s 0x2000 6 } }
  emit s (.can (0x700 + s.mgmt.nodeId) [0])

/-- Steps 3 and 4: firmware runs, P values are applied, and the dictionary is served. A watchdog reset is reported (R525); its
condition does not stand. -/
def serve (s : State) : State :=
  let s := bootUp (applyStored s)
  let s := if val s 0x2D00 2 = 2 || val s 0x2D00 2 = 3 then emcy s 0x6100 (toLe 4 (val s 0x2C10 6)) else s
  { s with
    sys := { s.sys with boot := .starting }
    mgmt := { s.mgmt with conditions := s.mgmt.conditions.filter (· ≠ 0x6100) } }

/-- Step 2: a firmware container is verified; one that fails holds the block (R563). -/
def verifyFirmware (s : State) (bs : Bytes) : State :=
  match openBox s.sys.keyHash 5 0xFF bs.length bs with
  | .ok _ => serve { s with sys := { s.sys with firmware := bs, fwId := boxId bs, cornerCount := Config.cornerCount bs } }
  | .error _ => { s with sys := { s.sys with boot := .firmware } }

/-- A domain that is neither retired nor held by a thermal shutdown comes On. -/
def bringOn (s : State) (d : Nat) : State :=
  let x := domAt s d
  if x.retired || x.thermal || domIsOn s d then s else enterOn s d .cold

/-- Step 5: the core domains are On, the channels of the nodes given are trained, PTP instances and armed pulse outputs
start, and each port with a non-zero Mode starts its link. -/
def startCore (s : State) (nodes : List (BitVec 16 × BitVec 16)) : State :=
  let s := [8, 9, 32, 33, 34].foldl bringOn s
  let s := ((nodes.take 256).zipIdx).foldl (fun s n =>
    let x := chanAt s n.2
    setChan s n.2 { x with x := n.1.1, y := n.1.2, state := if x.state = .training then .up else x.state }) s
  let s := (List.range 4).foldl (fun s n => if val s (0x2210 + n) 1 = 0 then s else ptpStart s n) s
  let s := (List.range 4).foldl (fun s k =>
    match writePulseMode k [BitVec.ofNat 8 (val s (0x2220 + k) 2)] s with
    | .ok t => t
    | _ => s) s
  allPorts.foldl (fun s p => if val s (0x2100 + p) 1 = 0 then s else bringOn s p) s

/-- Step 6 for one context: its image is presented through the staging area, checked and written, and the domains that it
needs come On. -/
def startImage (images : List (BitVec 6 × Option Bytes × List Nat)) (s : State) (c : Nat) : State :=
  if val s (cb c 0) 5 ≠ 1 then s
  else
    let s := zeroCounters (clearBlock (setCtxState s c .loading) c) c
    let s := put (startTeardown s c 0) (cb c 0) 2 ((ctxGen s c + 1) % 256)
    match (images.find? fun x => x.1.toNat = c).map (·.2) with
    | some (some bs, probes) =>
      if flueDown s then loadFail s c 0x0106
      else
        let s := put s 0x2020 3 bs.length
        match loadImage s c bs probes with
        | .error cause => loadFail s c cause
        | .ok l =>
          let ds := domainsAwaited s l.state c
          let s := ds.foldl bringOn s
          match loadImage s c bs probes with
          | .error cause => loadFail s c cause
          | .ok l => installImage s c l
    | _ => loadFail s c 0x0106

/-- Steps 5 to 7: admission opens for every context that the start has loaded, once the domains have reopened. -/
def openUp (s : State) (images : List (BitVec 6 × Option Bytes × List Nat)) (nodes : List (BitVec 16 × BitVec 16)) : State :=
  let s := allCtxs.foldl (startImage images) (startCore s nodes)
  let s := (List.range 36).foldl (fun s d => if domIsOn s d then setDom s d { domAt s d with open_ := true } else s) s
  let s := allCtxs.foldl (fun s c => if ctxState s c = .closed then setCtxState s c .opened else s) s
  soot { s with sys := { s.sys with boot := .running } } 0x2D02 none (val s 0x2D00 2) (val s 0x2001 6)

/-- WARM_SEQUENCE (R563, R564): the sequence goes on by one part, from step 1 to step 4, or from step 5 to step 7. Firmware comes
from the copy in always-on SRAM, or over the boot link where there is none (R560). -/
def execWarmSequence (firmware : Option Bytes) (images : List (BitVec 6 × Option Bytes × List Nat))
    (nodes : List (BitVec 16 × BitVec 16)) (s : State) : Host.Outcome State Fault Refusal :=
  .next (
    match s.sys.boot with
    | .cold => verifyFirmware s (if s.sys.firmware.isEmpty then firmware.getD [] else s.sys.firmware)
    | .starting => openUp s images nodes
    | .held => s
    | .firmware => s
    | .hot => s
    | .running => s)

/-- FIRMWARE_CONTAINER_RECEIVED (R563): a new container arrives for a block that is held at step 2. -/
def execFirmwareContainerReceived (firmware : Bytes) (s : State) : Host.Outcome State Fault Refusal :=
  .next (if s.sys.boot = .firmware then verifyFirmware s firmware else s)

/-! ### Thermal control (R550, R551, R589) -/

/-- The always-on domain at 115 °C: the block enters warm reset and is held there (R551). -/
def hotReset (s : State) : State :=
  let s := if s.sys.boot = .held || s.sys.boot = .hot then s else warmReset s 6
  if s.sys.boot = .held then s else { s with sys := { s.sys with boot := .hot } }

/-- The thermal warning, once per upward crossing (R550). -/
def thermalWarning (s : State) (d : Nat) : State :=
  let x := domAt s d
  if 10 * (val s 0x2D00 6 : Int) ≤ x.tj then
    if x.warned then s else soot (setDom s d { x with warned := true }) 0x2D03 none d (unsign 64 x.tj)
  else setDom s d { x with warned := false }

/-- What a sensor's reading does in a domain other than always-on: corner breach above 95 °C, thermal shutdown after 1 ms at
105 °C, and its end at 90 °C. -/
def thermalDomain (s : State) (d : Nat) : State :=
  let x := domAt s d
  if x.retired then s
  else
    let s := if 950 < x.tj && gauged d && domIsOn s d then
        enterBreach s d ((domainGauges d).headD 0) (tabGet 0 s.power.gauges ((domainGauges d).headD 0)) else s
    let y := domAt s d
    let s := if 1050 ≤ x.tj then
        if y.thermal then s
        else if 100 ≤ y.hotReads then shutDown s d
        else setDom s d { y with hotReads := y.hotReads + 1 }
      else setDom s d { y with hotReads := 0 }
    let y := domAt s d
    if y.thermal && x.tj ≤ 900 then
      let s := soot (setDom s d { y with thermal := false }) 0x2D03 none (d + 512) (unsign 64 x.tj)
      if firmwareRuns s then requestOn s d else s
    else s

/-- A sensor's reading of domain `d`, in 0.1 °C. -/
def readSensor (s : State) (r : Int × Nat) : State :=
  let d := r.2
  let s := thermalWarning (setDom s d { domAt s d with tj := r.1 }) d
  if d ≠ 35 then thermalDomain s d
  else if 1150 ≤ r.1 then hotReset s
  else if r.1 ≤ 1000 && s.sys.boot = .hot then { s with sys := { s.sys with boot := .cold } }
  else s

/-- THERMAL_READ (R550): the sensors are read together, in domain order. -/
def execThermalRead (tj : List Int) (s : State) : Host.Outcome State Fault Refusal :=
  .next (if s.sys.boot = .held then s else ((tj.take 36).zipIdx).foldl readSensor s)

/-- THERMAL_TRIP (R550, R551): a domain reaches 115 °C. -/
def execThermalTrip (domain : Nat) (s : State) : Host.Outcome State Fault Refusal :=
  if 36 ≤ domain then .fault .noSuchUnit
  else .next (if domain = 35 then hotReset s else if s.sys.boot = .held then s else shutDown s domain)

end Sys2Proof.Machine
end

