-- ==== Sys2Proof/Machine/Live.lean ====
section
/-! DEFINITION. What a read of the dictionary returns (R513–R515, R520): the objects whose value is the state of a unit, each
beside the rule that gives it; every other object reads as its register. -/

namespace Sys2Proof.Machine

/-! ### Byte strings of the block's objects -/

/-- The grant selected by a requester (R540). -/
def readGrant (q : Requester) (s : State) : Bytes := toLe 16 (grantAt s (selected s q 0x2010 1)).toNat

/-- The channels whose state does, or does not, say that they are retired (R460). -/
def channelMask (s : State) (retired : Bool) : Nat :=
  maskOf ((List.range 256).filter fun f => ((chanAt s f).state = .retired) = retired)

/-- Code of a store slot's state (R383). -/
def hstateCode (h : Option HSlot) : Nat :=
  match h with
  | none => 0
  | some x => match x.state with | .empty => 0 | .stored => 1 | .active => 2 | .draining => 3

/-- Slots of the configuration store with their owners (0x2800:04). -/
def storeSlots (s : State) : Bytes :=
  (List.range 16).flatMap fun k =>
    [BitVec.ofNat 8 (hstateCode (hslot s k)), BitVec.ofNat 8 ((hslot s k).elim 0xFF (·.owner))]

/-- The spare map (0x2800:08): the logical column of each group that stands on the spare, or 0xFF. -/
def spareMap (s : State) : Bytes := (List.range 8).map fun g => BitVec.ofNat 8 ((spareColumn s g).getD 0xFF)

/-- The Soot log entry of a SEQ; no byte where it is overwritten or not yet written (R509). -/
def sootEntry (s : State) (seq : Nat) : Bytes :=
  match s.recov.soot.find? fun e => e.seq.toNat = seq with
  | none => []
  | some e => sootBytes e

/-- DOMAIN and string objects outside the context blocks. -/
def blockObject (q : Requester) (s : State) (i sub : Nat) : Bytes :=
  if i = 0x2000 then
    match sub with
    | 1 => ascii "Uliren UE-8"
    | 5 => s.sys.keyHash
    | _ => s.sys.serialText
  else if i = 0x2010 then readGrant q s
  else if 0x2120 ≤ i && i < 0x2128 then
    toLe 32 (tabGet 0 (portAt s (i - 0x2120)).filters (selected s q i 1)).toNat
  else if 0x2130 ≤ i && i < 0x2138 then
    gateListBytes (if sub = 3 then (portAt s (i - 0x2130)).adminList else (portAt s (i - 0x2130)).oper.list)
  else match i, sub with
    | 0x2500, _ => toLe 64 (val s 0x2500 2)
    | 0x2600, _ => (List.range 4).flatMap fun g => toLe 4 (8388608 - groupUse s g)
    | 0x2700, 4 => (List.range 6).flatMap fun b => toLe 2 (sparesLeft s b)
    | 0x2700, _ => toLe 32 (regionAt s (selected s q 0x2700 7)).toNat
    | 0x2800, 4 => storeSlots s
    | 0x2800, 5 => (List.range 8).flatMap fun g => toLe 4 (storeFree s g)
    | 0x2800, 6 => (List.range 8).flatMap fun g => toLe 2 (extFree s g)
    | 0x2800, _ => spareMap s
    | 0x2A00, 1 => toLe 32 (channelMask s false)
    | 0x2A00, _ => toLe 32 (channelMask s true)
    | 0x2C00, _ => sootEntry s (selected s q 0x2C00 3)
    | 0x2C30, _ => (ashAt s (selected s q 0x2C30 1)).bytes
    | _, _ => []

/-! ### Numbers of the block's objects -/

/-- The domains in a state (0x2001:02, 03). -/
def domainMask (s : State) (code : Nat) : Nat := maskOf ((List.range 36).filter fun d => domCode (domAt s d) = code)

/-- Code of a link's state (R126). -/
def linkCode (l : Link) : Nat := match l with | .down => 0 | .negotiating => 1 | .up10 => 2 | .up25 => 3

/-- Code of a discipline session (R138). -/
def sessionCode (x : Session) : Nat := match x with | .idle => 0 | .armed => 1 | .running => 2

/-- Code of a channel's state (R436). -/
def chanCode (x : ChanState) : Nat := match x with | .down => 0 | .training => 1 | .up => 2 | .retired => 3

/-- A kept mask of domains in one of the power lists. -/
def listMask (l : List Nat) : Nat := maskOf l.eraseDups

/-- Identity and status (R538, R539). -/
def identityValue (s : State) (i sub : Nat) : Option Nat :=
  match i, sub with
  | 0x1001, _ => some (errorRegister s.mgmt.conditions).toNat
  | 0x1003, 0 => some s.mgmt.errors.length
  | 0x1003, k => some (s.mgmt.errors.getD (k - 1) 0).toNat
  | 0x1014, _ => some (0x80 + s.mgmt.nodeId)
  | 0x1018, 3 => some s.sys.revision.toNat
  | 0x1018, 4 => some s.sys.serial.toNat
  | 0x2000, 2 => some s.sys.siteX.toNat
  | 0x2000, 3 => some s.sys.siteY.toNat
  | 0x2000, 4 => some s.sys.fwId.toNat
  | 0x2001, 1 => some (if s.sys.boot ≠ .running then 0 else if s.mgmt.conditions.contains 0x5000 then 2 else 1)
  | 0x2001, 2 => some (domainMask s 0)
  | 0x2001, 3 => some (domainMask s 1)
  | 0x2001, 4 => some (maskOf (allCtxs.filter fun c => ctxState s c = .opened))
  | 0x2001, 5 => some ((baseE (baseAt s (logBase s)) + 2 ^ 64 - s.sys.warmAt.getD (logBase s) 0) % 2 ^ 64)
  | _, _ => none

/-- Objects of a port, capture input or time base that show its state (R126–R128, R164, R167, R168). -/
def unitValue (q : Requester) (s : State) (i sub : Nat) : Option Nat :=
  if 0x2110 ≤ i && i < 0x2118 then
    match sub with
    | 1 => some (linkCode (portAt s (i - 0x2110)).link)
    | 2 => some (if (portAt s (i - 0x2110)).fec then 1 else 0)
    | _ => none
  else if 0x2120 ≤ i && i < 0x2128 then
    match sub with
    | 3 => some (tabGet 0 (portAt s (i - 0x2120)).hits (selected s q i 1))
    | 4 => some ((portAt s (i - 0x2120)).filters.filter fun f => bit (filterWord f.2 0) 31).length
    | _ => none
  else if 0x2130 ≤ i && i < 0x2138 then
    if sub = 8 then some (if (portAt s (i - 0x2130)).change.isSome then 1 else 0) else none
  else if 0x2200 ≤ i && i < 0x2204 then
    match sub with
    | 2 => some (baseAt s (i - 0x2200)).refStatus
    | 4 => some (sessionCode (baseAt s (i - 0x2200)).session)
    | 8 => some (unsign 64 (baseAt s (i - 0x2200)).rho)
    | _ => none
  else if 0x2230 ≤ i && i < 0x2234 then
    if sub = 4 then some (captureAt s (i - 0x2230)).fifo.length else none
  else if 0x2240 ≤ i && i < 0x2248 then
    match sub with
    | 5 => some (unsign 32 (latencyIn s (i - 0x2240)))
    | 6 => some (unsign 32 (latencyOut s (i - 0x2240)))
    | _ => none
  else none

/-- Pools and engines of the block (R75, R245, R274, R334, R402, R433, R460). -/
def poolValue (s : State) (i sub : Nat) : Option Nat :=
  match i, sub with
  | 0x2380, 4 => some (listMask s.power.liveTrip)
  | 0x2380, 5 => some (listMask s.power.breach)
  | 0x2400, 2 => some (edgesInUse s)
  | 0x2500, 3 => some (treeBytesFree s)
  | 0x2700, 2 => some (localCapacity s)
  | 0x2700, 3 => some (localCapacity s - ((allRuns s 1).map (·.2)).sum)
  | 0x2700, 9 => some ((validRegions s).map fun r => regionSize r.2).sum
  | 0x2800, 7 => some (131072 - (allCtxs.map fun c => val s (cb c 7) 0x0B).sum)
  | 0x2900, 2 => some (4096 - templatesInUse s)
  | 0x2A00, 3 => some (um s)
  | 0x2A00, 0x0C => some s.flue.unreachable.length
  | 0x2C10, 5 => some (maskOf ((List.range 36).filter fun d => (domAt s d).retired))
  | 0x2C30, 4 => some (ashHeld s)
  | _, _ => none

/-- The channel at a requester's selection (R461). -/
def channelValue (s : State) (f sub : Nat) : Nat :=
  let x := chanAt s f
  match sub with
  | 2 => chanCode x.state
  | 3 => (holderOf s f).elim 0 (256 + ·)
  | 4 => x.x.toNat
  | 5 => x.y.toNat
  | 6 => x.sent
  | 7 => x.received
  | 8 => x.crcErrors
  | _ => x.replays

/-- The domain at a requester's selection (R568). -/
def domainValue (s : State) (d sub : Nat) : Nat :=
  let x := domAt s d
  match sub with
  | 2 => domCode x
  | 3 => x.policy
  | 5 => x.vdd
  | 6 => unsign 32 x.tj
  | 7 => x.power
  | 8 => x.cycles
  | _ => x.shutdowns

/-- Numbers of the block's objects that are not registers. -/
def blockValue (q : Requester) (s : State) (i sub : Nat) : Option Nat :=
  if sub = 0 && i ≠ 0x1001 && i ≠ 0x1003 && i ≠ 0x1014 then none
  else if i < 0x2100 then identityValue s i sub
  else if i < 0x2300 then unitValue q s i sub
  else match i with
    | 0x2A10 => if 2 ≤ sub then some (channelValue s (selected s q i 1) sub) else none
    | 0x2D20 => if 2 ≤ sub && sub ≠ 4 then some (domainValue s (selected s q i 1) sub) else none
    | 0x2D10 => some (tabGet 0 s.power.gauges (sub - 1))
    | 0x2B00 =>
      let k := selected s q i 1
      match sub with
      | 2 => some (counterAt s k).toNat
      | 3 => some ((counterOwner s k).getD 0xFF)
      | 4 => some (waiters s k)
      | _ => none
    | _ => poolValue s i sub

/-! ### Context objects -/

/-- The Garnet directory (R251, R273): the loaded header with the program entries as they stand, and the records. -/
def garnetDirectory (s : State) (c : Nat) (im : Image) : Bytes :=
  let head := if im.progs.isEmpty then 1 :: List.replicate 31 0 else im.progs.take 32
  let progs : Bytes := (List.range 16).map fun e => match progAt s c e with | none => 0 | some k => BitVec.ofNat 8 (0x80 + k)
  patch head 8 progs ++ (List.range 16).flatMap fun k =>
    match (ensAt s c k).ens with
    | none => List.replicate 288 0
    | some e => e.raw

/-- State code of an ensemble slot (R265). -/
def ensCode (x : EnsState) : Nat :=
  match x with
  | .empty => 0
  | .loaded => 1
  | .active => 2
  | .draining => 3
  | .unplaced => 4

/-- A state row (R244): 32 slot words and the mask of valid slots; zeros for an instrument outside the set (DESIGN CHOICE,
notes/assumptions/37). -/
def rowBytesOf (s : State) (c i : Nat) : Bytes :=
  let r := if inInstruments s c i then rowAt s i else []
  ((List.range 32).flatMap fun k => toLe 8 ((slotWord r k).getD 0).toNat) ++ toLe 4 (maskOf (r.map (·.1)))

/-- An Opal slot (R234, R306). -/
def slotBytesOf (s : State) (c i : Nat) : Bytes :=
  if inInstruments s c i then
    let x := slotAt s i
    (x.vals.flatMap fun v => toLe 2 v.toNat) ++ toLe 4 x.seq.toNat ++ toLe 4 x.stamp.toNat
      ++ [BitVec.ofNat 8 ((if x.old then 1 else 0) + if x.published then 2 else 0)] ++ List.replicate 7 0
  else List.replicate 48 0

/-- A placement directory entry (R319). -/
def dirBytes (s : State) (c i : Nat) : Bytes :=
  if inInstruments s c i then
    let d := dirAt s i
    [BitVec.ofNat 8 d.pl, BitVec.ofNat 8 ((if d.lock then 1 else 0) + if d.mig then 2 else 0)]
      ++ toLe 2 d.ver.toNat ++ toLe 4 d.nseq.toNat ++ toLe 8 (d.addr.toNat + 2 ^ 34 * d.region.toNat)
  else List.replicate 16 0

/-- The Opal image as it stands (R275, R306): the current weights. -/
def opalBytes (m : OpalImage) : Bytes := m.header ++ m.feedback ++ m.tensor

/-- Program figures of a store slot (R401). -/
def figureBytes (s : State) (k : Nat) : Bytes :=
  match (hslot s k).bind (·.cfg) with
  | none => List.replicate 128 0
  | some g => (List.range 8).flatMap fun p =>
    match g.figures[p]? with
    | none => List.replicate 16 0
    | some f => toLe 4 f.pcrit ++ toLe 4 f.ii ++ toLe 4 f.xsum ++ [BitVec.ofNat 8 f.klass, 0, 0, 0]

/-- The bins of a site (R401): zeros where the site is not the context's. -/
def histBytes (s : State) (c site : Nat) : Bytes :=
  let r := (ctxAt s c).run
  (List.range 24).flatMap fun k => toLe 4 (tabGet 0 r.bins (binKey site (k / 8) (k % 8)))

/-- The unit entry at a site in the active configuration (R371); no byte where the site is not the context's. -/
def unitBytes (s : State) (c site : Nat) : Bytes :=
  match configIn s c .active with
  | none => []
  | some (_, g) => match unitAt g site with | none => [] | some u => u.raw

/-- DOMAIN objects of a context block; `k` is the index's offset. -/
def ctxBytes (q : Requester) (s : State) (c k sub : Nat) : Bytes :=
  let i := cb c k
  let x := ctxAt s c
  match k, sub with
  | 2, _ => match x.image with
    | none => []
    | some im => ((im.layouts.find? fun l => l.1 = sub - 1).map (·.2.raw)).getD []
  | 3, 1 => (x.image.map (·.feat.raw)).getD []
  | 3, _ => rowBytesOf s c (selected s q i 6)
  | 4, _ => match x.image with | none => [] | some im => garnetDirectory s c im
  | 5, 1 => (x.weights.map opalBytes).getD []
  | 5, 0x0F => (rolloutAt s c (selected s q i 0x0D)).results.flatMap fun r => r.flatMap fun v => toLe 2 v.toNat
  | 5, _ => slotBytesOf s c (selected s q i 0x10)
  | 6, _ => dirBytes s c (selected s q i 9)
  | 7, 1 => (List.range 16).map fun n =>
      match hslot s n with
      | none => 0
      | some h => if h.owner = c then BitVec.ofNat 8 (hstateCode (some h)) else 0
  | 7, 0x0F => figureBytes s (selected s q i 3)
  | 7, 0x11 => histBytes s c (selected s q i 0x10)
  | 7, _ => unitBytes s c (selected s q i 0x26)
  | 8, _ => (x.image.map (·.chim.raw)).getD []
  | _, _ => []

/-- Swap status (R401). -/
def swapStatus (s : State) (c : Nat) : Nat := if (swapOf s c).isSome then 1 else val s (cb c 7) 6

/-- Numbers of a context block that are not registers. -/
def ctxValue (q : Requester) (s : State) (c k sub : Nat) : Option Nat :=
  let i := cb c k
  match k, sub with
  | _, 0 => none
  | 0, n => some (slotObject s c n)
  | 1, n => some ((portAt s (n - 1)).filters.filter fun f => filterOf? c f.2).length
  | 2, 0x14 => some (s.work.symbols.filter fun x => match x.2 with | some e => e.1 = c | none => false).length
  | 2, 0x38 => some (laggedObject s c)
  | 2, n => if 0x30 ≤ n && n ≤ 0x37 then some (publishedLayout s c (n - 0x30)) else none
  | 4, 4 => some (ensCode (ensAt s c (selected s q i 3)).state)
  | 4, 0x0B => some (ctxTreeBytes s c)
  | 5, 9 => some (maskOf (replicaSet s c))
  | 6, 2 => some (contextH s c)
  | 6, 3 => some (bytesIn s c 1)
  | 6, 4 => some (bytesIn s c 2)
  | 6, 5 => some ((instruments s c).filter fun n => (dirAt s n).pl = 1).length
  | 6, 6 => some ((instruments s c).filter fun n => (dirAt s n).pl = 2).length
  | 6, 7 => some ((instruments s c).filter fun n => (dirAt s n).pl = 3).length
  | 7, 2 => some (((configIn s c .active).map (·.1)).getD 0xFF)
  | 7, 6 => some (swapStatus s c)
  | 7, 0x0D => some (spillCount (ctxAt s c).run)
  | 8, 2 => some (((ctxAt s c).image.map (·.chim.templates.length)).getD 0)
  | 8, 4 => some (ticketOf s c (selected s q i 3))
  | 8, 0x0A => some (resendRing s c).2
  | 8, 0x0B => some (resendRing s c).1
  | 9, 8 => some (tokensOf s c)
  | 0xA, _ => some (((ctxAt s c).image.map (·.chim.sessmask.toNat)).getD 0)
  | 0xB, 4 => some (counterAt s (selected s q i 3)).toNat
  | 0xB, 6 => some (waiters s (selected s q i 3))
  | _, _ => none

/-! ### Reads -/

/-- Whether an index belongs to a context block (R22). -/
def inBlock (i : Nat) : Bool := 0x3000 ≤ i && i < 0x3400

/-- The bytes of an object, as a requester reads it: its selection, the state of its unit, or its register. -/
def objectBytes (q : Requester) (s : State) (i sub : Nat) (r : Row) : Bytes :=
  let c := (i - 0x3000) / 16
  match tyBytes r.ty with
  | none => if inBlock i then ctxBytes q s c (i % 16) sub else blockObject q s i sub
  | some n =>
    toLe n (
      if r.select then selected s q i sub
      else ((if inBlock i then ctxValue q s c (i % 16) sub else blockValue q s i sub).getD (val s i sub)))

/-- Whether a counter is read whose number lies outside its context's range (R479). -/
def counterOutside (q : Requester) (s : State) (i sub : Nat) : Bool :=
  let c := (i - 0x3000) / 16
  let k := selected s q i 3
  let g := counterRange s c
  inBlock i && i % 16 = 0x0B && (sub = 4 || sub = 6) && !(g.1 ≤ k && k < g.1 + g.2)

/-- A read of an object that may be read: its bytes, and the state after it. Extended time latches its fraction (R136),
Next stamp pops (R157), and Rollout status sets an ended slot Idle (R298). -/
def readValue (q : Requester) (i sub : Nat) (s : State) : Except (BitVec 32) (Bytes × State) :=
  if 0x2200 ≤ i && i < 0x2204 && sub = 9 then .ok (readExtended (i - 0x2200) s)
  else if 0x2230 ≤ i && i < 0x2234 && sub = 3 then .ok (readNextStamp (i - 0x2230) s)
  else if inBlock i && i % 16 = 5 && sub = 0x0E then .ok (readRollout q ((i - 0x3000) / 16) s)
  else if counterOutside q s i sub then .error abRange
  else match findRow i sub with
    | none => .error abSub
    | some r => .ok (objectBytes q s i sub r, s)

/-- A read as the dictionary serves it: its checks (R515, R531, R564), then the value. -/
def serveRead (q : Requester) (i sub : Nat) (s : State) : Except (BitVec 32) (Bytes × State) :=
  match readAbort s q i sub with
  | some a => .error a
  | none => readValue q i sub s

end Sys2Proof.Machine
end

