-- ==== Sys2Proof/Machine/Dictionary.lean ====
section
/-! DEFINITION. What a write to any object of the dictionary does (R519): the rules of each object's own chapter, and for
every other object the new value of its register. -/

namespace Sys2Proof.Machine

/-! ### Rules of single objects -/

/-- A write that changes the register only. -/
def writePlain (i sub : Nat) (data : Bytes) (s : State) : Ans := .ok (put s i sub (leNat data))

/-- A write that changes the register only, refused unless the value keeps a rule of its own, and then unless the state
allows it. -/
def writeWhen (inRange allowed : Bool) (i sub : Nat) (data : Bytes) (s : State) : Ans :=
  if !inRange then .error abRange else if !allowed then .error abState else writePlain i sub data s

/-- A write of a select subindex: Template select lies below NTPL (R430), and Counter select in the context's range (R479). -/
def writeSelect (q : Requester) (i sub : Nat) (data : Bytes) (s : State) : Ans :=
  let v := leNat data
  let c := (i - 0x3000) / 16
  let g := counterRange s c
  let ntpl := ((ctxAt s c).image.map (·.chim.templates.length)).getD 0
  if inBlock i && i % 16 = 8 && ntpl ≤ v then .error abRange
  else if inBlock i && i % 16 = 0x0B && !(g.1 ≤ v && v < g.1 + g.2) then .error abRange
  else .ok (setSelected s q i sub v)

/-- A write of Sticky flags clears the bits it sets (R244, R273, R306, R371). -/
def writeSticky (i sub : Nat) (data : Bytes) (s : State) : Ans :=
  .ok (put s i sub (val s i sub - (val s i sub &&& leNat data)))

/-- The rules of CB:03 (R18, R23). -/
def writeCommand (c : Nat) (data : Bytes) (s : State) : Ans :=
  match leNat data with
  | 1 => commandLoad c s
  | 2 => commandOpen c s
  | 3 => commandClose c s
  | 4 => commandRecover c s
  | 5 => commandUnload c s
  | _ => .error abRange

/-- The rules of CB+0x08:04 (R418, R430): the ticket is set, the heads of the context's wait lines are compared again, and the
write is logged, with an entry that the spec does not give. -/
def writeTicket (q : Requester) (c : Nat) (data : Bytes) (s : State) : Ans :=
  let t := selected s q (cb c 8) 3
  match templateAt s c t with
  | none => .error abRange
  | some _ =>
    let s := setTicket s c t (leNat data)
    let s := (List.range 8).foldl (fun s p => parkHead s c p) s
    let x := nextFree s
    let e := Config.ticketEntry x.1
    .ok (sootCtx x.2 c e.1.toNat e.2.1.toNat e.2.2.toNat)

/-- The rules of CB+0x07:0B (R392, R401): the quotas together stay within the store. -/
def writeSpillQuota (c : Nat) (data : Bytes) (s : State) : Ans :=
  let others := (allCtxs.filter (· ≠ c)).map fun k => val s (cb k 7) 0x0B
  writeWhen (decide (others.sum + leNat data ≤ 131072)) true (cb c 7) 0x0B data s

/-- The rules of a bucket's depth or period (R415): the bucket is full. -/
def writeBucket (k i sub : Nat) (data : Bytes) (s : State) : Ans :=
  if k < 64 || sub = 0x0A || leNat data ≤ 1000000 || leNat data = noBucket then
    .ok (fillBucket (put s i sub (leNat data)) k)
  else .error abRange

/-- The rules of CB+0x09:05 (R431): source 0, 1 with a field, or 2 with a slot. -/
def referenceSourceOk (v : Nat) : Bool :=
  match v / 256 with
  | 0 => true
  | 1 => v % 256 ≤ 47
  | 2 => v % 256 ≤ 31
  | _ => false

/-- The rules of CB+0x0B:01 and :02 (R479). -/
def writeRange (c sub : Nat) (data : Bytes) (s : State) : Ans :=
  let g := counterRange s c
  let r := if sub = 1 then (leNat data, g.2) else (g.1, leNat data)
  writeWhen (r.1 + r.2 ≤ 1024 && !countersMeet s c r) (ctxState s c == .free) (cb c 0x0B) sub data s

/-- The rules of 0x2010:11 (R540). -/
def grantOk (v : Nat) : Bool :=
  match v % 256 with
  | 0 => v == 0
  | 1 => bits v 15 9 = 0 && bits v 63 48 = 0 && 1 ≤ bits v 31 16 && bits v 31 16 ≤ 127 && bits v 47 32 = 0
  | 2 => bits v 15 9 = 0 && bits v 63 48 = 0
  | _ => false

/-- Whether some grant of a table names a requester and has the block flag. -/
def blockGrant (t : Tab (BitVec 128)) : Bool :=
  t.any fun g => (bits g.2.toNat 7 0 = 1 || bits g.2.toNat 7 0 = 2) && bit g.2.toNat 8

/-- Write of the selected grant (R521, R540): unless the TAP writes it, a grant with the block flag remains; the select copy
of the grant returns to its defaults. -/
def writeGrant (q : Requester) (data : Bytes) (s : State) : Ans :=
  let g := selected s q 0x2010 1
  let v := leNat data
  let t := tabSet 0 s.mgmt.grants g (BitVec.ofNat 128 v)
  if data.length < 16 then .error abShort
  else if 16 < data.length then .error abLong
  else if !grantOk v then .error abRange
  else if q ≠ .tap && !blockGrant t then .error abState
  else .ok { s with
    mgmt := { s.mgmt with grants := t }
    selects := s.selects.filter fun x => x.1 / 2 ^ 24 ≠ 3 + g }

/-- The rules of 0x2020:01–03 (R541). -/
def writeStaging (sub : Nat) (data : Bytes) (s : State) : Ans :=
  let v := leNat data
  let ok := match sub with
    | 2 => v ≤ 33554432
    | 3 => v ≤ val s 0x2020 2
    | _ => true
  writeWhen ok (val s 0x2020 4 == 0) 0x2020 sub data s

/-- The rules of 0x2130+p:03 (R115): 8 bytes an entry, at most 256 entries. -/
def writeAdminList (p : Nat) (data : Bytes) (s : State) : Ans :=
  if 2048 < data.length then .error abLong
  else if data.length % 8 ≠ 0 then .error abShort
  else match readGateList data with
    | none => .error abRange
    | some l => .ok (setPort s p { portAt s p with adminList := l })

/-- The rules of 0x2D20:03 (R547, R568): a domain that keeps policy 0 takes no other. -/
def writePolicy (q : Requester) (data : Bytes) (s : State) : Ans :=
  let d := selected s q 0x2D20 1
  if leNat data ≠ 0 && (d = 8 || d = 9 || 32 ≤ d) then .error abRange
  else .ok (setDom s d { domAt s d with policy := leNat data })

/-! ### Dispatch -/

/-- Objects of a context block; `k` is the index's offset. -/
def writeContext (q : Requester) (c k sub : Nat) (data : Bytes) (env : Env) (s : State) : Ans :=
  let i := cb c k
  match k, sub with
  | 0, 3 => writeCommand c data s
  | 2, 0x13 => writeSymbol c data s
  | 3, 2 => writeSticky i sub data s
  | 3, 5 => writeStateClear c data s
  | 4, 2 => writeSticky i sub data s
  | 4, 5 => stagedWrite (applyEnsembleLoad c (selected s q i 3) data) s
  | 4, 6 => writeEnsembleCommand q c s
  | 4, 7 => writeProgramSwitch c data s
  | 5, 2 => writeSticky i sub data s
  | 5, 0x0A => stagedWrite (applyWeightLoad c data) s
  | 5, 0x0B => writeWeightCommand c data s
  | 5, 0x0C => writeRollout c data s
  | 6, 1 => writeQuota c data s
  | 6, 8 => writeMigrate c data s
  | 7, 4 => stagedWrite (applyConfigLoad c (selected s q i 3) data env.probePs) s
  | 7, 5 => writeConfigCommand c (selected s q i 3) data s
  | 7, 0x0B => writeSpillQuota c data s
  | 7, 0x12 => writeHistClear c data s
  | 7, 0x20 => writeSticky i sub data s
  | 8, 4 => writeTicket q c data s
  | 8, 0x0D => writeResendRelease c data s
  | 9, 1 => .ok (applyKills (put s i sub (leNat data)))
  | 9, 5 => writeWhen (referenceSourceOk (leNat data)) true i sub data s
  | 9, 6 => writeBucket c i sub data s
  | 9, 7 => writeBucket c i sub data s
  | 0xB, 1 => writeRange c sub data s
  | 0xB, 2 => writeRange c sub data s
  | 0xB, 5 => writeIncrement q c data s
  | _, _ => writePlain i sub data s

/-- Objects of the ports and rings (R125, R127–R129). -/
def writePort (q : Requester) (i sub : Nat) (data : Bytes) (s : State) : Ans :=
  let v := leNat data
  if i < 0x2108 then
    let p := i - 0x2100
    match sub with
    | 1 => writePortMode p data s
    | 6 => writeWhen (v / 256 = 1 || v / 256 = 2) true i sub data s
    | 0xC => .ok (linkStart (dropLink s p) p)
    | _ => writePlain i sub data s
  else if i < 0x2130 then writeFilterEntry q (i - 0x2120) data s
  else if i < 0x2138 then
    match sub with
    | 3 => writeAdminList (i - 0x2130) data s
    | 7 => writeConfigChange (i - 0x2130) s
    | 1 => .ok (applyGates (put s i 1 v) (i - 0x2130))
    | 6 => .ok (applyGates (put s i 6 v) (i - 0x2130))
    | _ => writePlain i sub data s
  else if sub = 5 then writeTail (i - 0x2140) data s
  else writeRingConfig (i - 0x2140) sub data s

/-- Objects of Quartz (R164–R168). -/
def writeQuartz (i sub : Nat) (data : Bytes) (s : State) : Ans :=
  if i < 0x2210 then
    let n := i - 0x2200
    match sub with
    | 1 => .ok (setBase (put s i 1 (leNat data)) n { baseAt s n with refStatus := 1 })
    | 5 => writeSession n data s
    | 6 => writeStep n (.by (signed 64 (leNat data))) s
    | 7 => writeStep n (.dest (leNat data)) s
    | 8 => writeRate n data s
    | _ => writePlain i sub data s
  else if i < 0x2220 then
    match sub with
    | 1 => writePtpRole (i - 0x2210) data s
    | 2 => writeWhen true (val s i 1 == 0 && (List.range 4).all fun n => i = 0x2210 + n || leNat data &&& val s (0x2210 + n) 2 == 0)
        i 2 data s
    | n => writeWhen true (5 < n || val s i 1 == 0) i sub data s
  else if i < 0x2230 then
    if sub = 2 then writePulseMode (i - 0x2220) data s else writeWhen true (val s i 2 == 0) i sub data s
  else writePlain i sub data s

/-- A send session's object (R432). -/
def writeSessionObject (k i sub : Nat) (data : Bytes) (s : State) : Ans :=
  match sub with
  | 3 => writeSendSession k data s
  | 4 => writeWhen true (val s i 2 != 1) i sub data s
  | 7 => writeWhen true (val s i 2 != 1) i sub data s
  | 8 => .ok (applyKills (put s i sub (leNat data)))
  | 9 => writeBucket (64 + k) i sub data s
  | 0xA => writeBucket (64 + k) i sub data s
  | _ => writePlain i sub data s

/-- Whether every context is Free, and whether every context whose bound mode in force is live is Free (R60). -/
def allFree (s : State) (live : Bool) : Bool := allCtxs.all fun c => ctxState s c == .free || (live && !(ctxAt s c).live)

/-- The other objects of the block. -/
def writeBlock (q : Requester) (i sub : Nat) (data : Bytes) (env : Env) (s : State) : Ans :=
  let v := leNat data
  match i, sub with
  | 0x1003, _ => .ok { s with mgmt := { s.mgmt with errors := [] } }
  | 0x2010, _ => writeGrant q data s
  | 0x2020, _ => writeStaging sub data s
  | 0x2380, 1 => writeWhen true (allFree s false) i sub data s
  | 0x2380, 2 => writeWhen true (allFree s true) i sub data s
  | 0x2380, 3 => writeWhen true (allFree s true) i sub data s
  | 0x2600, _ => writeWhen (v &&& val s 0x2600 7 == 0) true i sub data s
  | 0x2700, _ => writeRegion (selected s q 0x2700 7) data (env.probePs.headD 0) s
  | 0x2800, 2 => writeWhen (v = 0 || (100 ≤ v && v ≤ 1000000000)) true i sub data s
  | 0x2900, _ => .ok (applyKills (put s i sub v))
  | 0x2B00, _ => writeHandSet q data s
  | 0x2C20, _ => writeWhen (v % 65536 ≠ 0 && v / 65536 ≠ 0) true i sub data s
  | 0x2C30, _ => writeDumpRelease q s
  | 0x2D00, 1 => if v = 1 then commandReset s else commandUpdate env.staged s
  | 0x2D20, 3 => writePolicy q data s
  | 0x2D20, _ => writeDomainCommand q data s
  | _, _ => writePlain i sub data s

/-- The rules of an object that may be written, after checks 1 to 5 of R519. -/
def applyWrite (q : Requester) (i sub : Nat) (data : Bytes) (env : Env) (s : State) : Ans :=
  let select := match findRow i sub with | none => false | some r => r.select
  if select then writeSelect q i sub data s
  else if inBlock i then writeContext q ((i - 0x3000) / 16) (i % 16) sub data env s
  else if 0x2100 ≤ i && i < 0x2180 then writePort q i sub data s
  else if 0x2200 ≤ i && i < 0x2248 then writeQuartz i sub data s
  else if 0x2910 ≤ i && i < 0x2950 then writeSessionObject (i - 0x2910) i sub data s
  else if 0x2A20 = i then writeWhen true (ctxState s (sub - 1) != .recovering) i sub data s
  else writeBlock q i sub data env s

/-! ### Service of a write (R519, R532) -/

/-- The kill objects (R532). -/
def isKill (i sub : Nat) : Bool :=
  (i = 0x2900 && sub = 1) || (inBlock i && i % 16 = 9 && sub = 1) || (0x2910 ≤ i && i < 0x2950 && sub = 8)

/-- A write given whole: a kill by its own short path, any other by the checks of R519 and the object's rules. -/
def serveWrite (q : Requester) (i sub : Nat) (data : Bytes) (env : Env) (s : State) : Ans :=
  if isKill i sub && data.length = 1 && leNat data ≤ 1 then killAns q i sub (leNat data) s
  else write s q i sub data (applyWrite q i sub data env)

end Sys2Proof.Machine
end

