-- ==== Sys2Proof/Machine/Transfers.lean ====
section
/-! DEFINITION. Transfers to and from the dictionary (R520, R526, R527, R531, R537): what a download segment does, how a staged
fragment is applied, and how a mailbox frame is served, whether it comes through the Flue or the TAP. -/

namespace Sys2Proof.Machine

/-! ### Downloads -/

/-- What becomes of a download segment: the transfer stays open, it ends with an abort code (0 when it has been written), or
its answer waits for the fragment to be verified. -/
inductive Taken where
  | more (s : State)
  | ended (abort : BitVec 32) (s : State)
  | deferred (s : State)

/-- A whole value is written. -/
def writeWhole (q : Requester) (i sub : Nat) (data : Bytes) (env : Env) (s : State) : Taken :=
  match serveWrite q i sub data env s with
  | .error a => .ended a s
  | .errorIn a t => .ended a t
  | .ok t => .ended 0 t

/-- The slot that a requester has selected for a fragment's object. -/
def fragmentSlot (s : State) (q : Requester) (i sub : Nat) : Nat := if sub = 0x0A then 0 else selected s q i 3

/-- The last byte of an open download has been accepted: a fragment is staged, anything else is written (R520, R537). -/
def finishDownload (q : Requester) (t : Transfer) (data : Bytes) (box : Option (Nat × Bytes)) (env : Env) (s : State) : Taken :=
  let s := setXfer s (pathOf q) none
  if isFragment t.index t.sub then
    let g : Staged := { who := q, index := t.index, sub := t.sub, sel := fragmentSlot s q t.index t.sub, data := data, mailbox := box }
    .deferred { s with mgmt := { s.mgmt with staged := some g } }
  else writeWhole q t.index t.sub data env s

/-- A segment of an open download, `last` where the requester says that it is the final one. -/
def takeSegment (q : Requester) (t : Transfer) (seg : Bytes) (last : Bool) (box : Option (Nat × Bytes)) (env : Env) (s : State) :
    Taken :=
  let data := t.data ++ seg
  if isFragment t.index t.sub && flueDown s then .ended abState (closeXfer s (pathOf q))
  else if t.total < data.length then .ended abLong (closeXfer s (pathOf q))
  else if data.length = t.total then finishDownload q t data box env s
  else if last then .ended abLength (closeXfer s (pathOf q))
  else .more (setXfer s (pathOf q) (some { t with data := data }))

/-- Checks 1 to 4 of R519 on the first segment of a segmented download. -/
def openAbort (s : State) (q : Requester) (i sub total : Nat) : Option (BitVec 32) :=
  if !served s then some abState
  else match accessAbort s q i sub with
    | some a => some a
    | none =>
      if otherOpen s q i sub then some abBusy
      else match (findRow i sub).bind fun r => tyBytes r.ty with
        | some n => if total = n then none else some abLength
        | none => none

/-- The first segment of a download: a value given whole is written at once; any other opens the path's transfer, and a
fragment then holds the staging area (R531, R537). -/
def takeFirst (q : Requester) (i sub total : Nat) (seg : Bytes) (last : Bool) (box : Option (Nat × Bytes)) (env : Env) (s : State) :
    Taken :=
  if total = seg.length && (total = 0 || !isFragment i sub) then writeWhole q i sub seg env s
  else match openAbort s q i sub total with
    | some a => .ended a s
    | none =>
      if (xferOf s (pathOf q)).isSome then .ended abState s
      else if isFragment i sub && !stagingFree s then .ended abState s
      else
        let s := if isFragment i sub then put s 0x2020 4 1 else s
        let t : Transfer := { index := i, sub := sub, who := q, total := total, data := [], upload := false }
        takeSegment q t seg last box env (setXfer s (pathOf q) (some t))

/-! ### Fragments (R537) -/

/-- The rules of a staged fragment's object. -/
def applyFragment (g : Staged) (env : Env) (s : State) : Ans :=
  let c := (g.index - 0x3000) / 16
  match g.index % 16 with
  | 4 => applyEnsembleLoad c g.sel g.data s
  | 5 => applyWeightLoad c g.data s
  | _ => applyConfigLoad c g.sel g.data env.probePs s

/-! ### Mailbox frames (R527) -/

/-- A response frame. -/
def mboxResponse (op i sub size : Nat) (abort : BitVec 32) (data : Bytes) : Bytes :=
  [BitVec.ofNat 8 op, if abort = 0 then 0 else 1] ++ toLe 2 i ++ [BitVec.ofNat 8 sub, 0, 0, 0] ++ toLe 4 size
    ++ toLe 4 abort.toNat ++ data

/-- The upload snapshot of a path: the TAP's own, or the mailbox's. -/
def snapOf (s : State) (p : Path) : Option (Nat × Nat × Bytes) := if p = .tap then s.mgmt.tapSnapshot else s.mgmt.snapshot

/-- Sets the upload snapshot of a path. -/
def setSnap (s : State) (p : Path) (x : Option (Nat × Nat × Bytes)) : State :=
  { s with mgmt := if p = .tap then { s.mgmt with tapSnapshot := x } else { s.mgmt with snapshot := x } }

/-- Discards the upload snapshot of a path, with the transfer that reads it. -/
def dropSnap (s : State) (p : Path) : State :=
  let s := setSnap s p none
  match xferOf s p with
  | none => s
  | some t => if t.upload then setXfer s p none else s

/-- An upload that does not fit in one frame opens the path's transfer. -/
def openUpload (q : Requester) (i sub : Nat) (bs : Bytes) (s : State) : State :=
  if bs.length ≤ 1008 then s
  else setXfer s (pathOf q) (some { index := i, sub := sub, who := q, total := bs.length, data := [], upload := true })

/-- An upload: at OFFSET 0 it takes the snapshot, at later offsets it reads from it (R520, R527). Gives the response. -/
def mboxUpload (q : Requester) (i sub off : Nat) (s : State) : Bytes × State :=
  let p := pathOf q
  let fail (a : BitVec 32) (s : State) : Bytes × State := (mboxResponse 1 i sub 0 a [], s)
  if off = 0 then
    let s := dropSnap s p
    match serveRead q i sub s with
    | .error a => fail a s
    | .ok (bs, t) =>
      if 1008 < bs.length && (xferOf s p).isSome then fail abState s
      else (mboxResponse 1 i sub bs.length 0 (bs.take 1008), openUpload q i sub bs (setSnap t p (some (i, sub, bs))))
  else
    match snapOf s p with
    | none => fail abOrder s
    | some (i', sub', bs) =>
      if i' ≠ i || sub' ≠ sub || bs.length < off then fail abOrder s
      else
        let s := if bs.length ≤ off + 1008 then
            (match xferOf s p with | some t => if t.upload then setXfer s p none else s | none => s)
          else s
        (mboxResponse 1 i sub bs.length 0 (slice bs off 1008), s)

/-- A download segment (R527): its OFFSET is the number of bytes received so far. -/
def mboxDownload (q : Requester) (i sub total off : Nat) (last : Bool) (seg : Bytes) (box : Option (Nat × Bytes)) (env : Env)
    (s : State) : Taken :=
  match xferOf s (pathOf q) with
  | some t =>
    if !t.upload && t.who = q && t.index = i && t.sub = sub then
      if off = t.data.length then takeSegment q t seg last box env s else .ended abOrder (closeXfer s (pathOf q))
    else if off = 0 then
      if last && total ≠ seg.length then .ended abLength s else takeFirst q i sub total seg last box env s
    else .ended abOrder s
  | none =>
    if off ≠ 0 then .ended abOrder s
    else if last && total ≠ seg.length then .ended abLength s
    else takeFirst q i sub total seg last box env s

/-- The requester ends its own transfer, and its snapshot goes. -/
def mboxAbort (q : Requester) (s : State) : State :=
  match xferOf s (pathOf q) with
  | none => s
  | some t => if t.who ≠ q then s else if t.upload then dropSnap s (pathOf q) else closeXfer s (pathOf q)

/-- A mailbox frame is served: the response, or none while it is deferred. A reserved field that is set is refused (R6). -/
def serveFrame (q : Requester) (fr : Bytes) (box : Option (Nat × Bytes)) (env : Env) (s : State) : Option Bytes × State :=
  let op := (byteAt fr 0).toNat
  let i := leAt fr 2 2
  let sub := (byteAt fr 4).toNat
  if !(1 ≤ op && op ≤ 3) then (some (mboxResponse op i sub 0 abSpecifier []), s)
  else if 1 < (byteAt fr 1).toNat || !zeroAt fr 5 3 then (some (mboxResponse op i sub 0 abRange []), s)
  else if op = 1 then
    let r := mboxUpload q i sub (leAt fr 12 4) s
    (some r.1, r.2)
  else if op = 2 then
    match mboxDownload q i sub (leAt fr 8 4) (leAt fr 12 4) (byteAt fr 1 = 1) (fr.drop 16) box env s with
    | .more t => (some (mboxResponse 2 i sub 0 0 []), t)
    | .ended a t => (some (mboxResponse 2 i sub 0 a []), t)
    | .deferred t => (none, t)
  else (some (mboxResponse 3 i sub 0 0 []), mboxAbort q s)

/-! ### The mailbox on the Flue (R449, R528, R529) -/

/-- The mesh node of a mailbox packet. -/
def mboxNode (p : Pkt) : BitVec 16 × BitVec 16 := (BitVec.ofNat 16 p.sx, BitVec.ofNat 16 p.sy)

/-- Sends the response of a mailbox request, and keeps it for a repeat (R528). A block that has just been reset sends none. -/
def mboxAnswer (f : Nat) (p : Pkt) (resp : Bytes) (s : State) : State :=
  if !served s then s
  else
    let n := mboxNode p
    let seq := BitVec.ofNat 16 p.arg.toNat
    let kept := s.mgmt.served.filter fun x => x.1 ≠ n
    answer { s with mgmt := { s.mgmt with served := kept ++ [(n, seq, resp)] } } f p 0x85 0 seq.toNat resp

/-- Whether a mailbox request is the one whose fragment awaits its verification. -/
def awaited (s : State) (p : Pkt) : Bool :=
  match s.mgmt.staged.bind (·.mailbox) with
  | none => false
  | some (_, bs) => mboxNode (pktOf bs) = mboxNode p && (pktOf bs).arg = p.arg

/-- A mailbox packet: a repeat is answered with the stored response, and any other request is served. -/
def serveMailbox (f : Nat) (bs : Bytes) (env : Env) (s : State) (p : Pkt) : State :=
  let n := mboxNode p
  let seq := BitVec.ofNat 16 p.arg.toNat
  if flueDown s || awaited s p then s
  else match s.mgmt.served.find? fun x => x.1 = n && x.2.1 = seq with
    | some x => answer s f p 0x85 0 seq.toNat x.2.2
    | none =>
      match serveFrame (.mesh n.1 n.2) p.payload (some (f, bs)) env s with
      | (some r, t) => mboxAnswer f p r t
      | (none, t) => t

/-- A mailbox packet as the command of one OP takes it: a packet with another valid OP is left to that OP's command. -/
def mailboxPacket (op f : Nat) (bs : Bytes) (env : Env) (s : State) : State :=
  let o := (byteAt bs 32).toNat
  if o ≠ op && 1 ≤ o && o ≤ 3 then s else receive s f 5 bs fun s p => serveMailbox f bs env s p

end Sys2Proof.Machine
end

