-- ==== Sys2Proof/Machine/Management.lean ====
section
/-! DEFINITION. The commands of management (17): NMT, heartbeat and EMCY, CAN FD transfers, the mailbox, the TAP, and the writes
of the dictionary that have no command of their own. -/

namespace Sys2Proof.Machine

/-! ### NMT (R523, R524) -/

/-- An NMT command for the block's node-ID or for node-ID 0, once the boot-up message has been sent. -/
def nmtCommand (node : BitVec 8) (s : State) (go : State → State) : State :=
  if s.mgmt.nmt ≠ .bootUp && (node = 0 || node.toNat = s.mgmt.nodeId) then go s else s

/-- Sets the NMT state; Stopped sends no EMCY, those waiting included. -/
def setNmt (n : Nmt) (s : State) : State :=
  { s with mgmt := { s.mgmt with nmt := n, emcy := if n = .stopped then [] else s.mgmt.emcy } }

/-- START_REMOTE_NODE (R523). -/
def execStartRemoteNode (node : BitVec 8) (s : State) : Host.Outcome State Fault Refusal :=
  .next (nmtCommand node s (setNmt .operational))

/-- STOP_REMOTE_NODE (R523). -/
def execStopRemoteNode (node : BitVec 8) (s : State) : Host.Outcome State Fault Refusal :=
  .next (nmtCommand node s (setNmt .stopped))

/-- ENTER_PRE_OPERATIONAL (R523). -/
def execEnterPreOperational (node : BitVec 8) (s : State) : Host.Outcome State Fault Refusal :=
  .next (nmtCommand node s (setNmt .preOperational))

/-- Communication restarts (R523): its transfer and its lists end, 0x1000–0x1FFF take their P values, the node-ID takes the one
written, and boot-up is sent. -/
def restartComm (s : State) : State :=
  let s := closeXfer s .can
  let stored (k : Nat × Nat × Nat) : Option Bytes := (s.mgmt.pStore.find? fun x => x.key = k).map (·.data)
  let mine (k : Nat × Nat × Nat) : Bool := 0x1000 ≤ k.1 && k.1 < 0x2000
  let s := (s.mgmt.pLost.filter mine).foldl (fun s k => applyP s k (stored k)) s
  bootUp { s with mgmt := { s.mgmt with
    pLost := s.mgmt.pLost.filter fun k => !mine k, errors := [], emcy := [], inhibited := false } }

/-- RESET_NODE (R523). -/
def execResetNode (node : BitVec 8) (s : State) : Host.Outcome State Fault Refusal :=
  .next (nmtCommand node s restartComm)

/-- RESET_COMMUNICATION (R523). -/
def execResetCommunication (node : BitVec 8) (s : State) : Host.Outcome State Fault Refusal :=
  .next (nmtCommand node s restartComm)

/-- The NMT state as a heartbeat carries it (R524). -/
def nmtCode (n : Nmt) : Byte :=
  match n with
  | .bootUp => 0x00
  | .stopped => 0x04
  | .operational => 0x05
  | .preOperational => 0x7F

/-- HEARTBEAT_TIMER (R524): none before boot-up, nor while the heartbeat time is 0. -/
def execHeartbeatTimer (s : State) : Host.Outcome State Fault Refusal :=
  .next (
    if s.mgmt.nmt = .bootUp || val s 0x1017 0 = 0 then s
    else emit s (.can (0x700 + s.mgmt.nodeId) [nmtCode s.mgmt.nmt]))

/-- EMCY_INHIBIT_END (R525): the oldest waiting EMCY is sent, and the inhibit time runs again. -/
def execEmcyInhibitEnd (s : State) : Host.Outcome State Fault Refusal :=
  .next (
    match s.mgmt.emcy with
    | [] => { s with mgmt := { s.mgmt with inhibited := false } }
    | m :: rest =>
      emit { s with mgmt := { s.mgmt with emcy := rest } } (.can (0x080 + s.mgmt.nodeId) (toLe 2 m.code.toNat ++ [m.reg] ++ m.man)))

/-! ### CAN FD transfers (R526, R531) -/

/-- A USDO request as the server takes it: none while Stopped (R523), and one of another node while a node's transfer is open
is refused (R526). -/
def usdoRequest (node : BitVec 7) (i sub : Nat) (s : State) (go : State → Requester → State) : State :=
  let q : Requester := .can node
  if !heard s q then s
  else match s.mgmt.canX with
    | none => go s q
    | some t => if t.who = q then go s q else respond s q i sub abState []

/-- A piece of an upload is sent; the transfer stays open until its last byte is. -/
def usdoPiece (q : Requester) (i sub : Nat) (bs : Bytes) (room : Nat) (s : State) : State :=
  let s := respond s q i sub 0 (bs.take room)
  setXfer s .can (if bs.length ≤ room then none
    else some { index := i, sub := sub, who := q, total := bs.length, data := bs.drop room, upload := true })

/-- USDO_UPLOAD (R520, R526): expedited, or segmented from a snapshot. A first request ends the node's open transfer. -/
def execUsdoUpload (node : BitVec 7) (index : BitVec 16) (sub : BitVec 8) (part : UsdoUp) (s : State) :
    Host.Outcome State Fault Refusal :=
  let i := index.toNat
  let k := sub.toNat
  .next (usdoRequest node i k s fun s q =>
    match part with
    | .other => respond s q i k abSpecifier []
    | .first room =>
      let s := closeXfer s .can
      match serveRead q i k s with
      | .error a => respond s q i k a []
      | .ok (bs, t) => usdoPiece q i k bs room t
    | .next room =>
      match s.mgmt.canX with
      | none => respond s q i k abOrder []
      | some t => if t.upload then usdoPiece q t.index t.sub t.data room s else respond s q i k abOrder [])

/-- The answer to a download segment on CAN FD. -/
def usdoAnswer (q : Requester) (i sub : Nat) (t : Taken) : State :=
  match t with
  | .more s => respond s q i sub 0 []
  | .ended a s => respond s q i sub a []
  | .deferred s => s

/-- USDO_DOWNLOAD (R520, R526, R537): expedited or segmented; it takes effect at its last byte. -/
def execUsdoDownload (node : BitVec 7) (index : BitVec 16) (sub : BitVec 8) (part : UsdoDown) (env : Env) (s : State) :
    Host.Outcome State Fault Refusal :=
  let i := index.toNat
  let k := sub.toNat
  .next (usdoRequest node i k s fun s q =>
    match part with
    | .other => respond s q i k abSpecifier []
    | .first total seg =>
      usdoAnswer q i k (takeFirst q i k total seg false none env (closeXfer s .can))
    | .next seg =>
      match s.mgmt.canX with
      | none => respond s q i k abOrder []
      | some t =>
        if t.upload then respond s q i k abOrder []
        else usdoAnswer q t.index t.sub (takeSegment q t seg false none env s))

/-- USDO_ABORT (R526): the node's open transfer ends and writes nothing. -/
def execUsdoAbort (node : BitVec 7) (s : State) : Host.Outcome State Fault Refusal :=
  .next (
    match s.mgmt.canX with
    | none => s
    | some t => if heard s (.can node) && t.who = .can node then closeXfer s .can else s)

/-- Ends the open transfer of a requester with an abort code. -/
def abortXfer (q : Requester) (a : BitVec 32) (s : State) : State :=
  match xferOf s (pathOf q) with
  | none => s
  | some t =>
    if t.who ≠ q then s
    else respond (if t.upload then dropSnap (closeXfer s (pathOf q)) (pathOf q) else closeXfer s (pathOf q)) q t.index t.sub a []

/-- TRANSFER_TIMEOUT (R518, R520): more than 100 ms between two segments. -/
def execTransferTimeout (q : Requester) (s : State) : Host.Outcome State Fault Refusal :=
  .next (abortXfer q abTimeout s)

/-! ### The mailbox (R527, R528) -/

/-- MAILBOX_UPLOAD (R527): OP 1. -/
def execMailboxUpload (f : BitVec 8) (packet : Packet) (s : State) : Host.Outcome State Fault Refusal :=
  .next (mailboxPacket 1 f.toNat packet { probePs := [], staged := none } s)

/-- MAILBOX_DOWNLOAD (R527): OP 2. -/
def execMailboxDownload (f : BitVec 8) (packet : Packet) (env : Env) (s : State) : Host.Outcome State Fault Refusal :=
  .next (mailboxPacket 2 f.toNat packet env s)

/-- MAILBOX_ABORT (R527): OP 3. -/
def execMailboxAbort (f : BitVec 8) (packet : Packet) (s : State) : Host.Outcome State Fault Refusal :=
  .next (mailboxPacket 3 f.toNat packet { probePs := [], staged := none } s)

/-- UPLOAD_SNAPSHOT_TIMEOUT (R527): 100 ms without a request. -/
def execUploadSnapshotTimeout (s : State) : Host.Outcome State Fault Refusal := .next (dropSnap s .mailbox)

/-- LOCK_WAIT_TIMEOUT (R531): a step has waited for more than 10 ms, and is aborted; the transfer that it belongs to ends. -/
def execLockWaitTimeout (q : Requester) (s : State) : Host.Outcome State Fault Refusal :=
  .next (
    match xferOf s (pathOf q) with
    | none => respond s q 0 0 abBusy []
    | some t => if t.who = q then abortXfer q abBusy s else respond s q 0 0 abBusy [])

/-! ### The TAP (R530, R575) -/

/-- Puts an instruction into the TAP's instruction register. -/
def setTap (s : State) (code : Byte) : State := { s with mgmt := { s.mgmt with tapInstr := code } }

/-- IDCODE (R530): 0x1E08_14E3 is shifted out. -/
def execIdcode (s : State) : Host.Outcome State Fault Refusal :=
  .next (setTap (emit s (.tdo 32 (toLe 4 0x1E0814E3))) 0x01)

/-- A frame of 1,024 bytes: what a response leaves open is 0. -/
def tapFrame (bs : Bytes) : Bytes := (bs ++ List.replicate 1024 0).take 1024

/-- TAP_MBOX (R530): the response to the previous request is shifted out, and the frame shifted in is served. -/
def execTapMbox (frame : Bytes) (env : Env) (s : State) : Host.Outcome State Fault Refusal :=
  let n := min 1008 (leAt frame 8 4 - leAt frame 12 4)
  let fr := if byteAt frame 0 = 2 then frame.take (16 + n) else frame
  let s := setTap (emit s (.tdo 8192 (tapFrame s.mgmt.tapLast))) 0x20
  let r := serveFrame .tap fr none env s
  let resp : Bytes := r.1.getD []
  .next { r.2 with mgmt := { r.2.mgmt with tapLast := resp } }

/-- BYPASS (R530): BYPASS or any code without a meaning; a code of another instruction is left to that one. -/
def execBypass (code : BitVec 8) (s : State) : Host.Outcome State Fault Refusal :=
  .next (if code = 0x01 || code = 0x20 then s else setTap (emit s (.tdo 1 [0])) code)

/-- TAP_RESET (R575): TRST_N low for 100 ns or more resets the TAP controller only. -/
def execTapReset (lowNs : Nat) (s : State) : Host.Outcome State Fault Refusal :=
  .next (if lowNs < 100 then s else setTap s 0x01)

/-! ### Writes -/

/-- GRANT_WRITE (R540). -/
def execGrantWrite (q : Requester) (grant : Bytes) (s : State) : Host.Outcome State Fault Refusal :=
  .next (request s q 0x2010 0x11 grant (writeGrant q grant))

/-- The deferred response of a fragment is sent on the path that it came by (R537). -/
def answerFragment (g : Staged) (a : BitVec 32) (s : State) : State :=
  let resp := mboxResponse 2 g.index g.sub 0 a []
  match g.who, g.mailbox with
  | .can n, _ => if heard s (.can n) then respond s g.who g.index g.sub a [] else s
  | .tap, _ => { s with mgmt := { s.mgmt with tapLast := resp } }
  | .mesh _ _, some (f, bs) => mboxAnswer f (pktOf bs) resp s
  | .mesh _ _, none => s

/-- FRAGMENT_VERIFIED (R537): a staged fragment is applied or refused, the staging area is free, and the deferred response is
sent. -/
def execFragmentVerified (env : Env) (s : State) : Host.Outcome State Fault Refusal :=
  .next (
    match s.mgmt.staged with
    | none => s
    | some g =>
      let s := put { s with mgmt := { s.mgmt with staged := none } } 0x2020 4 0
      match applyFragment g env s with
      | .error a => answerFragment g a s
      | .errorIn a t => answerFragment g a t
      | .ok t => answerFragment g 0 t)

/-- OBJECT_WRITE (R519): a write to any object. -/
def execObjectWrite (q : Requester) (index : BitVec 16) (sub : BitVec 8) (data : Bytes) (env : Env) (s : State) :
    Host.Outcome State Fault Refusal :=
  let i := index.toNat
  let k := sub.toNat
  .next (
    if !heard s q then s
    else match serveWrite q i k data env s with
      | .error a => respond s q i k a []
      | .errorIn a t => respond t q i k a []
      | .ok t => respond t q i k 0 [])

end Sys2Proof.Machine
end

