-- ==== Sys2Proof/Machine/Dispatch.lean ====
section
/-! DEFINITION. Which meaning each command has: one arm per constructor of Instr. -/

namespace Sys2Proof.Machine

def exec (i : Instr) (s : State) : Host.Outcome State Fault Refusal :=
  match i with
  | .load q c => Sys2Proof.Machine.execLoad q c s
  | .loadComplete c container probePs => Sys2Proof.Machine.execLoadComplete c container probePs s
  | .openContext q c => Sys2Proof.Machine.execOpenContext q c s
  | .closeContext q c => Sys2Proof.Machine.execCloseContext q c s
  | .recover q c => Sys2Proof.Machine.execRecover q c s
  | .unload q c => Sys2Proof.Machine.execUnload q c s
  | .unloadComplete c => Sys2Proof.Machine.execUnloadComplete c s
  | .generationAdvance c => Sys2Proof.Machine.execGenerationAdvance c s
  | .purgeComplete c => Sys2Proof.Machine.execPurgeComplete c s
  | .purgeTimeout c engine domain => Sys2Proof.Machine.execPurgeTimeout c engine domain s
  | .partitionCycleDone domain selfTestOk purged => Sys2Proof.Machine.execPartitionCycleDone domain selfTestOk purged s
  | .recoveryComplete c => Sys2Proof.Machine.execRecoveryComplete c s
  | .hangDetect c engine => Sys2Proof.Machine.execHangDetect c engine s
  | .portModeWrite q p mode => Sys2Proof.Machine.execPortModeWrite q p mode s
  | .restartLink q p => Sys2Proof.Machine.execRestartLink q p s
  | .linkUp p speed rsFec => Sys2Proof.Machine.execLinkUp p speed rsFec s
  | .linkDown p => Sys2Proof.Machine.execLinkDown p s
  | .linkTrainingTimeout p => Sys2Proof.Machine.execLinkTrainingTimeout p s
  | .rxFrameStart p dest express => Sys2Proof.Machine.execRxFrameStart p dest express s
  | .filterDecided p bytes => Sys2Proof.Machine.execFilterDecided p bytes s
  | .rxFrameEnd p bytes tail => Sys2Proof.Machine.execRxFrameEnd p bytes tail s
  | .rxOversize p bytes => Sys2Proof.Machine.execRxOversize p bytes s
  | .rxAbort p bytes => Sys2Proof.Machine.execRxAbort p bytes s
  | .macVerdict frame => Sys2Proof.Machine.execMacVerdict frame s
  | .effectiveVerdict frame => Sys2Proof.Machine.execEffectiveVerdict frame s
  | .symbolLookup p bytes => Sys2Proof.Machine.execSymbolLookup p bytes s
  | .decisionPoint p bytes => Sys2Proof.Machine.execDecisionPoint p bytes s
  | .stateAccess c found => Sys2Proof.Machine.execStateAccess c found s
  | .stateClear q c value => Sys2Proof.Machine.execStateClear q c value s
  | .oldSweep => Sys2Proof.Machine.execOldSweep s
  | .ringChainDue frame kind => Sys2Proof.Machine.execRingChainDue frame kind s
  | .ringChainWrite r descriptors written => Sys2Proof.Machine.execRingChainWrite r descriptors written s
  | .ringNotifyTimer r => Sys2Proof.Machine.execRingNotifyTimer r s
  | .ringTailWrite q r tail => Sys2Proof.Machine.execRingTailWrite q r tail s
  | .ringConfigWrite q r sub value => Sys2Proof.Machine.execRingConfigWrite q r sub value s
  | .filterEntryWrite q p entry => Sys2Proof.Machine.execFilterEntryWrite q p entry s
  | .txFrameStart p heads => Sys2Proof.Machine.execTxFrameStart p heads s
  | .txFrameDone p => Sys2Proof.Machine.execTxFrameDone p s
  | .gateEntryAdvance p => Sys2Proof.Machine.execGateEntryAdvance p s
  | .configChange q p value => Sys2Proof.Machine.execConfigChange q p value s
  | .configChangeApply p => Sys2Proof.Machine.execConfigChangeApply p s
  | .preemptionVerifyTimer p => Sys2Proof.Machine.execPreemptionVerifyTimer p s
  | .verifyResponse p respond => Sys2Proof.Machine.execVerifyResponse p respond s
  | .baseWrap n => Sys2Proof.Machine.execBaseWrap n s
  | .epochIncrement n => Sys2Proof.Machine.execEpochIncrement n s
  | .rateWrite q n rate => Sys2Proof.Machine.execRateWrite q n rate s
  | .referenceLost n => Sys2Proof.Machine.execReferenceLost n s
  | .referenceLocked ref => Sys2Proof.Machine.execReferenceLocked ref s
  | .sessionArm q n => Sys2Proof.Machine.execSessionArm q n s
  | .sessionEnd q n => Sys2Proof.Machine.execSessionEnd q n s
  | .step q n delta => Sys2Proof.Machine.execStep q n delta s
  | .setTime q n target => Sys2Proof.Machine.execSetTime q n target s
  | .stepApply n => Sys2Proof.Machine.execStepApply n s
  | .ptpMessageRx n message => Sys2Proof.Machine.execPtpMessageRx n message s
  | .ptpIntervalTimer n port timer => Sys2Proof.Machine.execPtpIntervalTimer n port timer s
  | .announceReceiptTimeout n port => Sys2Proof.Machine.execAnnounceReceiptTimeout n port s
  | .ptpRoleWrite q n role => Sys2Proof.Machine.execPtpRoleWrite q n role s
  | .pulseModeWrite q k mode => Sys2Proof.Machine.execPulseModeWrite q k mode s
  | .pulseEdge k => Sys2Proof.Machine.execPulseEdge k s
  | .pulseWidthEnd k => Sys2Proof.Machine.execPulseWidthEnd k s
  | .captureEdge k rising => Sys2Proof.Machine.execCaptureEdge k rising s
  | .nextStamp q k => Sys2Proof.Machine.execNextStamp q k s
  | .extendedTimeRead q n => Sys2Proof.Machine.execExtendedTimeRead q n s
  | .symbolInsert q c instrument symbol => Sys2Proof.Machine.execSymbolInsert q c instrument symbol s
  | .symbolRemove q c symbol => Sys2Proof.Machine.execSymbolRemove q c symbol s
  | .opalEventIssue message => Sys2Proof.Machine.execOpalEventIssue message s
  | .opalStepStart step bad corrected => Sys2Proof.Machine.execOpalStepStart step bad corrected s
  | .slotPublish step => Sys2Proof.Machine.execSlotPublish step s
  | .sequenceUpdate instrument => Sys2Proof.Machine.execSequenceUpdate instrument s
  | .weightLoad q c container => Sys2Proof.Machine.execWeightLoad q c container s
  | .weightSwitch q c => Sys2Proof.Machine.execWeightSwitch q c s
  | .weightDiscard q c => Sys2Proof.Machine.execWeightDiscard q c s
  | .weightError work kind => Sys2Proof.Machine.execWeightError work kind s
  | .weightRewriteDone c group => Sys2Proof.Machine.execWeightRewriteDone c group s
  | .laneRetire lane => Sys2Proof.Machine.execLaneRetire lane s
  | .rolloutRequest q c request => Sys2Proof.Machine.execRolloutRequest q c request s
  | .rolloutStep c read => Sys2Proof.Machine.execRolloutStep c read s
  | .rolloutStatusRead q c => Sys2Proof.Machine.execRolloutStatusRead q c s
  | .migrate q c request => Sys2Proof.Machine.execMigrate q c request s
  | .migrateCopyDone copy => Sys2Proof.Machine.execMigrateCopyDone copy s
  | .migrateLock instrument => Sys2Proof.Machine.execMigrateLock instrument s
  | .migrateSwitch copy => Sys2Proof.Machine.execMigrateSwitch copy s
  | .migrateRelease instrument => Sys2Proof.Machine.execMigrateRelease instrument s
  | .regionDescriptorWrite q descriptor probePs => Sys2Proof.Machine.execRegionDescriptorWrite q descriptor probePs s
  | .regionUnfence region => Sys2Proof.Machine.execRegionUnfence region s
  | .localQuotaWrite q c quota => Sys2Proof.Machine.execLocalQuotaWrite q c quota s
  | .remoteWriteFailure instrument position address => Sys2Proof.Machine.execRemoteWriteFailure instrument position address s
  | .spareRowReplace bank read => Sys2Proof.Machine.execSpareRowReplace bank read s
  | .bankRetire bank => Sys2Proof.Machine.execBankRetire bank s
  | .ensembleLoad q c container => Sys2Proof.Machine.execEnsembleLoad q c container s
  | .ensembleFree q c => Sys2Proof.Machine.execEnsembleFree q c s
  | .programSwitch q c value => Sys2Proof.Machine.execProgramSwitch q c value s
  | .garnetPass message => Sys2Proof.Machine.execGarnetPass message s
  | .treeDecision message => Sys2Proof.Machine.execTreeDecision message s
  | .treeMemoryError message slice word kind => Sys2Proof.Machine.execTreeMemoryError message slice word kind s
  | .treeReloadDone c slot => Sys2Proof.Machine.execTreeReloadDone c slot s
  | .sliceRetire slice => Sys2Proof.Machine.execSliceRetire slice s
  | .relayoutDone c slot => Sys2Proof.Machine.execRelayoutDone c slot s
  | .mul site => Sys2Proof.Machine.execMul site s
  | .add site => Sys2Proof.Machine.execAdd site s
  | .sub site => Sys2Proof.Machine.execSub site s
  | .dot site => Sys2Proof.Machine.execDot site s
  | .acc site => Sys2Proof.Machine.execAcc site s
  | .imul site => Sys2Proof.Machine.execImul site s
  | .cmp site => Sys2Proof.Machine.execCmp site s
  | .sel site => Sys2Proof.Machine.execSel site s
  | .drop site => Sys2Proof.Machine.execDrop site s
  | .steer site => Sys2Proof.Machine.execSteer site s
  | .merge site => Sys2Proof.Machine.execMerge site s
  | .plog site => Sys2Proof.Machine.execPlog site s
  | .logic site => Sys2Proof.Machine.execLogic site s
  | .shift site => Sys2Proof.Machine.execShift site s
  | .iadd site => Sys2Proof.Machine.execIadd site s
  | .minmax site => Sys2Proof.Machine.execMinmax site s
  | .cvt site => Sys2Proof.Machine.execCvt site s
  | .idx site => Sys2Proof.Machine.execIdx site s
  | .rep site => Sys2Proof.Machine.execRep site s
  | .exp site => Sys2Proof.Machine.execExp site s
  | .log site => Sys2Proof.Machine.execLog site s
  | .recip site => Sys2Proof.Machine.execRecip site s
  | .rsqrt site => Sys2Proof.Machine.execRsqrt site s
  | .sqrt site => Sys2Proof.Machine.execSqrt site s
  | .tanh site => Sys2Proof.Machine.execTanh site s
  | .sigmoid site => Sys2Proof.Machine.execSigmoid site s
  | .silu site => Sys2Proof.Machine.execSilu site s
  | .gelu site => Sys2Proof.Machine.execGelu site s
  | .tab site => Sys2Proof.Machine.execTab site s
  | .ldstRead site => Sys2Proof.Machine.execLdstRead site s
  | .ldstWrite site => Sys2Proof.Machine.execLdstWrite site s
  | .rmw site => Sys2Proof.Machine.execRmw site s
  | .stream site => Sys2Proof.Machine.execStream site s
  | .stb site => Sys2Proof.Machine.execStb site s
  | .fin site => Sys2Proof.Machine.execFin site s
  | .cout site => Sys2Proof.Machine.execCout site s
  | .flo site => Sys2Proof.Machine.execFlo site s
  | .fli site => Sys2Proof.Machine.execFli site s
  | .kwait site => Sys2Proof.Machine.execKwait site s
  | .kinc site => Sys2Proof.Machine.execKinc site s
  | .deadlockDetect c => Sys2Proof.Machine.execDeadlockDetect c s
  | .configurationLoad q c container probePs => Sys2Proof.Machine.execConfigurationLoad q c container probePs s
  | .configurationFree q c => Sys2Proof.Machine.execConfigurationFree q c s
  | .drainSwap q c => Sys2Proof.Machine.execDrainSwap q c s
  | .cutSwap q c => Sys2Proof.Machine.execCutSwap q c s
  | .swapDrainEnd c => Sys2Proof.Machine.execSwapDrainEnd c s
  | .swapSwitchDone c => Sys2Proof.Machine.execSwapSwitchDone c s
  | .queueSample => Sys2Proof.Machine.execQueueSample s
  | .histogramClear q c value => Sys2Proof.Machine.execHistogramClear q c value s
  | .siteRetire site => Sys2Proof.Machine.execSiteRetire site s
  | .recordIntake c => Sys2Proof.Machine.execRecordIntake c s
  | .waitLineRelease c p => Sys2Proof.Machine.execWaitLineRelease c p s
  | .counterWaitExpired c p => Sys2Proof.Machine.execCounterWaitExpired c p s
  | .replyRelease p => Sys2Proof.Machine.execReplyRelease p s
  | .releaseDeadlineMiss p => Sys2Proof.Machine.execReleaseDeadlineMiss p s
  | .commitPoint reply => Sys2Proof.Machine.execCommitPoint reply s
  | .replyEnd reply => Sys2Proof.Machine.execReplyEnd reply s
  | .txUnderrun p => Sys2Proof.Machine.execTxUnderrun p s
  | .bucketRefill c session => Sys2Proof.Machine.execBucketRefill c session s
  | .globalKill q value => Sys2Proof.Machine.execGlobalKill q value s
  | .contextKill q c value => Sys2Proof.Machine.execContextKill q c value s
  | .sessionKill q session value => Sys2Proof.Machine.execSessionKill q session value s
  | .sessionOpen q session => Sys2Proof.Machine.execSessionOpen q session s
  | .sessionResume q session => Sys2Proof.Machine.execSessionResume q session s
  | .sessionClose q session => Sys2Proof.Machine.execSessionClose q session s
  | .resendReleaseWrite q c value => Sys2Proof.Machine.execResendReleaseWrite q c value s
  | .templateError reply kind => Sys2Proof.Machine.execTemplateError reply kind s
  | .channelTrainingDone f => Sys2Proof.Machine.execChannelTrainingDone f s
  | .channelTrainingTimeout f => Sys2Proof.Machine.execChannelTrainingTimeout f s
  | .linkControlFlit f flit => Sys2Proof.Machine.execLinkControlFlit f flit s
  | .statusFlitTimer f => Sys2Proof.Machine.execStatusFlitTimer f s
  | .crcError f packet => Sys2Proof.Machine.execCrcError f packet s
  | .replayTimeout f => Sys2Proof.Machine.execReplayTimeout f s
  | .requestLifetimeExpired f entry => Sys2Proof.Machine.execRequestLifetimeExpired f entry s
  | .rd f packet => Sys2Proof.Machine.execRd f packet s
  | .wr f packet => Sys2Proof.Machine.execWr f packet s
  | .brd f packet => Sys2Proof.Machine.execBrd f packet s
  | .probe f packet => Sys2Proof.Machine.execProbe f packet s
  | .rdData f packet => Sys2Proof.Machine.execRdData f packet s
  | .wrAck f packet => Sys2Proof.Machine.execWrAck f packet s
  | .probeAck f packet elapsedPs => Sys2Proof.Machine.execProbeAck f packet elapsedPs s
  | .doorbell f packet => Sys2Proof.Machine.execDoorbell f packet s
  | .htok f packet => Sys2Proof.Machine.execHtok f packet s
  | .hcred f packet => Sys2Proof.Machine.execHcred f packet s
  | .beacon f packet => Sys2Proof.Machine.execBeacon f packet s
  | .faultBeaconLine heldNs => Sys2Proof.Machine.execFaultBeaconLine heldNs s
  | .reachabilityProbe => Sys2Proof.Machine.execReachabilityProbe s
  | .increment q c amount => Sys2Proof.Machine.execIncrement q c amount s
  | .handSet q value => Sys2Proof.Machine.execHandSet q value s
  | .counterUpdate => Sys2Proof.Machine.execCounterUpdate s
  | .gaugeWindow gauge read => Sys2Proof.Machine.execGaugeWindow gauge read s
  | .droopFlag gauge ratio => Sys2Proof.Machine.execDroopFlag gauge ratio s
  | .supplyEvaluation domain => Sys2Proof.Machine.execSupplyEvaluation domain s
  | .thermalRead tj => Sys2Proof.Machine.execThermalRead tj s
  | .thermalTrip domain => Sys2Proof.Machine.execThermalTrip domain s
  | .powerSample average domains => Sys2Proof.Machine.execPowerSample average domains s
  | .domainOn q => Sys2Proof.Machine.execDomainOn q s
  | .domainBank q => Sys2Proof.Machine.execDomainBank q s
  | .domainCold q => Sys2Proof.Machine.execDomainCold q s
  | .domainTransitionDone domain selfTestOk => Sys2Proof.Machine.execDomainTransitionDone domain selfTestOk s
  | .gateDelayExpired domain => Sys2Proof.Machine.execGateDelayExpired domain s
  | .watchdogExpired => Sys2Proof.Machine.execWatchdogExpired s
  | .stokerFault => Sys2Proof.Machine.execStokerFault s
  | .warmReset q => Sys2Proof.Machine.execWarmReset q s
  | .warmResetWithUpdate q container => Sys2Proof.Machine.execWarmResetWithUpdate q container s
  | .blkRst lowNs => Sys2Proof.Machine.execBlkRst lowNs s
  | .powerOn keyHash failedUnits failedDomains repairs => Sys2Proof.Machine.execPowerOn keyHash failedUnits failedDomains repairs s
  | .powerLoss lowNs => Sys2Proof.Machine.execPowerLoss lowNs s
  | .warmSequence firmware images nodes => Sys2Proof.Machine.execWarmSequence firmware images nodes s
  | .dumpRelease q value => Sys2Proof.Machine.execDumpRelease q value s
  | .logMillisecondEnd => Sys2Proof.Machine.execLogMillisecondEnd s
  | .pValueStoreDone stored => Sys2Proof.Machine.execPValueStoreDone stored s
  | .startRemoteNode node => Sys2Proof.Machine.execStartRemoteNode node s
  | .stopRemoteNode node => Sys2Proof.Machine.execStopRemoteNode node s
  | .enterPreOperational node => Sys2Proof.Machine.execEnterPreOperational node s
  | .resetNode node => Sys2Proof.Machine.execResetNode node s
  | .resetCommunication node => Sys2Proof.Machine.execResetCommunication node s
  | .heartbeatTimer => Sys2Proof.Machine.execHeartbeatTimer s
  | .emcyInhibitEnd => Sys2Proof.Machine.execEmcyInhibitEnd s
  | .usdoUpload node index sub part => Sys2Proof.Machine.execUsdoUpload node index sub part s
  | .usdoDownload node index sub part env => Sys2Proof.Machine.execUsdoDownload node index sub part env s
  | .usdoAbort node => Sys2Proof.Machine.execUsdoAbort node s
  | .transferTimeout q => Sys2Proof.Machine.execTransferTimeout q s
  | .mailboxUpload f packet => Sys2Proof.Machine.execMailboxUpload f packet s
  | .mailboxDownload f packet env => Sys2Proof.Machine.execMailboxDownload f packet env s
  | .mailboxAbort f packet => Sys2Proof.Machine.execMailboxAbort f packet s
  | .uploadSnapshotTimeout => Sys2Proof.Machine.execUploadSnapshotTimeout s
  | .lockWaitTimeout q => Sys2Proof.Machine.execLockWaitTimeout q s
  | .idcode => Sys2Proof.Machine.execIdcode s
  | .tapMbox frame env => Sys2Proof.Machine.execTapMbox frame env s
  | .bypass code => Sys2Proof.Machine.execBypass code s
  | .tapReset lowNs => Sys2Proof.Machine.execTapReset lowNs s
  | .grantWrite q grant => Sys2Proof.Machine.execGrantWrite q grant s
  | .fragmentVerified env => Sys2Proof.Machine.execFragmentVerified env s
  | .objectWrite q index sub data env => Sys2Proof.Machine.execObjectWrite q index sub data env s
  | .channelLinkLost f => Sys2Proof.Machine.execChannelLinkLost f s
  | .localRelayoutDone => Sys2Proof.Machine.execLocalRelayoutDone s
  | .templateRewriteDone c template => Sys2Proof.Machine.execTemplateRewriteDone c template s
  | .firmwareContainerReceived firmware => Sys2Proof.Machine.execFirmwareContainerReceived firmware s

end Sys2Proof.Machine
end

