-- ==== Sys2Proof/Safety.lean ====
section
/-! DEFINITION. The terms in which claims are stated: what a safe step is, what an accepted, a refused and an unheard request
are, and the invariants of the block. -/

namespace Sys2Proof.Machine

/-- A step is safe where it answers a next state: the block neither faults nor refuses. -/
def safeStep (s : State) : Prop := ∃ t, step s = .next t

/-- Command `i` completes in `s` with a next state of which `p` holds. -/
def completes (i : Instr) (s : State) (p : State → Prop) : Prop := ∃ t, exec i s = .next t ∧ p t

/-- The dictionary's own checks pass a write (R518, R519): its requester is heard, it carries bytes, and no check of
existence, access, level, exclusion, length or range refuses it. What is left are the object's own rules. -/
def accepts (s : State) (q : Requester) (i sub : Nat) (data : Bytes) : Prop :=
  heard s q = true ∧ data ≠ [] ∧ writeAbort s q i sub data = none

/-- The dictionary's checks pass a read (R515, R531, R564). -/
def readable (s : State) (q : Requester) (i sub : Nat) : Prop := heard s q = true ∧ readAbort s q i sub = none

/-- The state after a write in `s` that the object's own rules accept with effect `t`: a value of retention class P is sent
to the store (R517), and the request is answered with code 0 and no data. -/
def accepted (s : State) (q : Requester) (i sub : Nat) (data : Bytes) (t : State) : State :=
  respond (if isP i sub then sendP t i sub (pSelection s q i sub) data else t) q i sub 0 []

/-- The state after a refused write: answered with its abort code, and nothing else changed (R518). -/
def refusedWith (s : State) (q : Requester) (i sub : Nat) (abort : BitVec 32) : State := respond s q i sub abort []

/-- Stoker SRAM is in its canonical form. -/
def sramInv (s : State) : Prop := Memory.wf s.net.sram = true

/-- Every entry of the symbol table stands in one of its key's two slots (R183). -/
def symbolsInv (s : State) : Prop :=
  ∀ x, x ∈ s.work.symbols → ∀ e, x.2 = some e → x.1 = symbolSlot e.1 e.2.1 0 ∨ x.1 = symbolSlot e.1 e.2.1 1

/-- The always-on domain is On (R544). -/
def alwaysOnInv (s : State) : Prop := domIsOn s 35 = true

/-- Unit `u` of a kind and opcode runs at a site and every input its firing consumes has a token or is an immediate, with
one tag, which is not another context's (R24, R339, R342). -/
def unitReady (s : State) (site kind op : Nat) (ins : List Nat) (u : UnitIn) (os : List Operand) : Prop :=
  siteOk site = true ∧ unitIn s site kind op = some u ∧ operands u ins = some os ∧ tagsDiffer os = false ∧ foreignTo s u os = none

/-- Command `i` makes unit `u` perform firing `f` on its operands wherever there is room for what it writes (R342). -/
def firesAs (i : Instr) (s : State) (u : UnitIn) (os : List Operand) (f : Firing) : Prop :=
  firingRoom u f = true → exec i s = .next (fireNow s u f (f.tag.getD (firingTag s u os)))

/-- A packet of a type stands at channel `f`, which is Up: its CRC is good and its SEQ the next one (R441). -/
def linkAccepts (s : State) (f type : Nat) (bs : Bytes) : Prop :=
  (chanAt s f).state = .up ∧ byteAt bs 0 = BitVec.ofNat 8 type ∧ pktGood bs = true ∧ pktSeq bs = (chanAt s f).rxSeq

/-- Such a packet also passes the checks of the inbound edge: reserved fields zero and no stale tag (R439, R451). -/
def edgeAccepts (s : State) (f type : Nat) (bs : Bytes) : Prop :=
  linkAccepts s f type bs ∧ pktReservedOk bs = true ∧ ((pktOf bs).ctxv = true → tagCurrent s (pktOf bs).tag = true)

end Sys2Proof.Machine
end

