-- ==== Sys2Proof/Certificates/Slice0/Obligations.lean ====
section
/-! DEFINITION. The statements for the provers: the step, the dictionary, and then family by family what each command does.
A command that completes by a plain change of the state is stated as an equation, which gives its effect and its frame
together. -/

section
open Sys2Proof Sys2Proof.Machine

/-! ### The step and the queue -/

/-- A step takes the command at the front of the queue and performs it with the queue's rest. -/
def Obligations.StepPerformsTheFrontCommand : Prop :=
  ∀ (i : Instr) (s : State), step { s with pending := i :: s.pending } = exec i s

/-- Every command that names units the block has answers a next state: none of them faults or is refused. A command that names
a unit the block does not have (a domain above 35, a site above 3,071, a bank above 5 or row above 8,191, a gauge above 95,
an engine outside 1 to 5) faults: that such an event faults is the model's reading of the ranges in R44, R308, R335, R481
and R544 (notes/assumptions/24). -/
def Obligations.CommandsCompleteWhereTheirUnitsExist : Prop :=
  ∀ (i : Instr) (s : State), (i.wf = true → ∃ t, exec i s = .next t) ∧ (i.wf = false → exec i s = .fault .noSuchUnit)

/-- No command but power-on and power loss changes the locked key hash, and no command touches the queue (R533: the hash is
locked until the next power-on). -/
def Obligations.KeyHashStaysLocked : Prop :=
  ∀ (i : Instr) (s t : State), exec i s = .next t →
    t.pending = s.pending ∧
    ((∀ h u d r, i ≠ .powerOn h u d r) → (∀ l, i ≠ .powerLoss l) → t.sys.keyHash = s.sys.keyHash)

/-- Stoker SRAM keeps its canonical form in every step, so that equal contents are equal data. -/
def Obligations.EveryStepKeepsTheSramForm : Prop :=
  ∀ (s t : State), sramInv s → step s = .next t → sramInv t

/-- The machine after reset meets the invariants (18, Start-up; R544, R561): the SRAM has the canonical form, the queue is
empty, the key hash is not yet read, the always-on domain is On and every other one Cold, every symbol stands in a slot of its
key, and every context is Free. -/
def Obligations.ResetMeetsTheInvariants : Prop :=
  sramInv State.reset ∧ State.reset.pending = [] ∧ State.reset.sys.keyHash = [] ∧ alwaysOnInv State.reset ∧ symbolsInv State.reset ∧
    (∀ c, c < 64 → ctxState State.reset c = .free) ∧ (∀ d, d < 35 → (domAt State.reset d).state = .cold)

/-- The always-on domain stays On in every step (R544: it is never in Banked or Cold; R545). -/
def Obligations.AlwaysOnStaysOn : Prop :=
  ∀ (s t : State), alwaysOnInv s → step s = .next t → alwaysOnInv t

/-! ### The dictionary (17) -/

/-- A write is answered and has its effect, or is aborted and changes nothing (R518, R519, R520, R523): one that the checks refuse
is answered with the first code that applies, one that its object's rules refuse with theirs, a zero-byte download is
accepted and writes nothing, and a CAN request while Stopped is not served at all. -/
def Obligations.RefusedWritesChangeNothing : Prop :=
  ∀ (s : State) (q : Requester) (i sub : Nat) (data : Bytes) (go : State → Ans),
    (heard s q = false → request s q i sub data go = s) ∧
    (∀ a, heard s q = true → data ≠ [] → writeAbort s q i sub data = some a →
      request s q i sub data go = respond s q i sub a []) ∧
    (∀ a, accepts s q i sub data → go s = .error a → request s q i sub data go = respond s q i sub a []) ∧
    (∀ t, accepts s q i sub data → go s = .ok t → request s q i sub data go = accepted s q i sub data t) ∧
    (heard s q = true → served s = true → accessAbort s q i sub = none → otherOpen s q i sub = false →
      request s q i sub [] go = respond s q i sub 0 [])

/-- The order of the checks of a write (R519): existence of the index and of the subindex, access, level and scope, an open
transfer of another path, length, reserved fields and range; then the object's own rules, its state among them. -/
def Obligations.WriteChecksComeInOrder : Prop :=
  ∀ (s : State) (q : Requester) (i sub : Nat) (data : Bytes), served s = true →
    (indexAssigned i = false → writeAbort s q i sub data = some 0x06020000) ∧
    (indexAssigned i = true → findRow i sub = none → writeAbort s q i sub data = some 0x06090011) ∧
    (∀ r, indexAssigned i = true → findRow i sub = some r → r.acc = .ro → writeAbort s q i sub data = some 0x06010002) ∧
    (∀ r, indexAssigned i = true → findRow i sub = some r → (r.acc = .rwi ∨ r.acc = .wo) → inScope s q i = false →
      writeAbort s q i sub data = some 0x06010000) ∧
    (∀ r, indexAssigned i = true → findRow i sub = some r → r.acc ≠ .ro → (r.acc = .rw ∨ inScope s q i = true) →
      (i < 0x2910 ∨ 0x2950 ≤ i ∨ inScope s q i = true) →
      (otherOpen s q i sub = true → writeAbort s q i sub data = some 0x08000021) ∧
      (otherOpen s q i sub = false →
        (∀ n, tyBytes r.ty = some n → data.length ≠ n → writeAbort s q i sub data = some 0x06070010) ∧
        ((∀ n, tyBytes r.ty = some n → data.length = n) →
          (inRange r data = false → writeAbort s q i sub data = some 0x06090030) ∧
          (inRange r data = true → writeAbort s q i sub data = none)))) ∧
    (∀ go a, heard s q = true → data ≠ [] → writeAbort s q i sub data = none → go s = .error a →
      request s q i sub data go = respond s q i sub a [])

/-! ### Contexts (01, 16) -/

/-- The open, close and recover commands (R18, R19, R484), each refused where R18 has no transition for it, and a hang that the
Damper finds (R482). -/
def Obligations.ContextCommandsAndHangs : Prop :=
  ∀ (s : State) (q : Requester) (c : BitVec 6),
    let n := c.toNat
    (accepts s q (cb n 0) 3 [2] →
      (ctxState s n = .closed → exec (.openContext q c) s = .next (accepted s q (cb n 0) 3 [2] (setCtxState s n .opened))) ∧
      (ctxState s n ≠ .closed → exec (.openContext q c) s = .next (refusedWith s q (cb n 0) 3 abState))) ∧
    (accepts s q (cb n 0) 3 [3] →
      (ctxState s n = .opened → exec (.closeContext q c) s =
        .next (accepted s q (cb n 0) 3 [3] (fillBuckets (setCtxState s n .closed) n))) ∧
      (ctxState s n ≠ .opened → exec (.closeContext q c) s = .next (refusedWith s q (cb n 0) 3 abState))) ∧
    (accepts s q (cb n 0) 3 [4] →
      (ctxState s n = .closed ∨ ctxState s n = .opened → exec (.recover q c) s =
        .next (accepted s q (cb n 0) 3 [4] (enterRecovering s n 0x0201))) ∧
      (ctxState s n ≠ .closed → ctxState s n ≠ .opened →
        exec (.recover q c) s = .next (refusedWith s q (cb n 0) 3 abState))) ∧
    (∀ e : BitVec 3, 1 ≤ e.toNat → e.toNat ≤ 5 →
      (heldItems s n e.toNat ≠ 0 → exec (.hangDetect c e) s = .next (enterRecovering s n (0x0210 + e.toNat))) ∧
      (heldItems s n e.toNat = 0 → exec (.hangDetect c e) s = .next s))

/-- What a cause does to a context (R484 step 1, R486, R487, R490, R584): an Open or Closed one enters Recovering with its
generation, counters and filter entries kept, its scratchpads frozen and no reply of it left unreleased; no other context
changes state. A Recovering one logs the cause as secondary but absorbs the retirement of a unit, a Loading one fails its load, an
Unloading one records the cause, and a Free one is not met. -/
def Obligations.CausesTakeContextsIntoRecovering : Prop :=
  ∀ (s : State) (c cause : Nat), c < 64 →
    let t := enterRecovering s c cause
    (ctxState s c = .closed ∨ ctxState s c = .opened →
      ctxState t c = .recovering ∧ phaseOf t c = some .awaitGen ∧ ctxGen t c = ctxGen s c ∧ val t (cb c 0) 0x0A = cause ∧
      reg t (cb c 0) 9 0 = (reg s (cb c 0) 9 0 + 1) % 2 ^ 32 ∧
      (ctxAt t c).frozen = true ∧ (ctxAt t c).image = (ctxAt s c).image ∧
      t.ctr.values = s.ctr.values ∧ (∀ p, (portAt t p).filters = (portAt s p).filters) ∧
      (∀ d, d < 64 → d ≠ c → ctxState t d = ctxState s d) ∧
      (∀ r x, replyAt t r = some x → x.ctx = c → x.state ≠ .waiting ∧ x.state ≠ .queued ∧ x.state ≠ .late) ∧
      t.quartz = s.quartz ∧ t.power = s.power ∧ t.sys.keyHash = s.sys.keyHash) ∧
    (ctxState s c = .recovering → cause = 0x0206 → t = s) ∧
    (ctxState s c = .recovering → cause ≠ 0x0206 →
      t = sootCtx s c 0x2C01 (cause + 65536) (ctxGen s c + 256 * ((ctxGen s c + 1) % 256))) ∧
    (ctxState s c = .loading → ctxState t c = .free ∧ val t (cb c 0) 0x0A = cause ∧ val t 0x2020 4 = 0 ∧
      t.quartz = s.quartz ∧ t.power = s.power ∧ t.ctr = s.ctr ∧ t.work = s.work) ∧
    (ctxState s c = .unloading → ctxState t c = .unloading ∧ val t (cb c 0) 0x0A = cause ∧ t.ctxs = s.ctxs) ∧
    (ctxState s c = .free → t = s)

/-- The load and unload commands (R18, R464, R536, R541, R554, R490). -/
def Obligations.LoadAndUnloadCommands : Prop :=
  ∀ (s : State) (q : Requester) (c : BitVec 6),
    let n := c.toNat
    (accepts s q (cb n 0) 3 [1] →
      (s.sys.boot = .running → ctxState s n = .free → stagingFree s = true → ∃ t, exec (.load q c) s = .next t ∧
        ctxState t n = .loading ∧ phaseOf t n = some .awaitGen ∧ ctxGen t n = ctxGen s n ∧ val t 0x2020 4 = 1 ∧
        (∀ k, (counterRange s n).1 ≤ k → k < (counterRange s n).1 + (counterRange s n).2 → counterAt t k = 0) ∧
        (∀ k, k < (counterRange s n).1 ∨ (counterRange s n).1 + (counterRange s n).2 ≤ k → counterAt t k = counterAt s k) ∧
        (∀ d, d < 64 → d ≠ n → ctxState t d = ctxState s d ∧ ctxAt t d = ctxAt s d) ∧
        t.quartz = s.quartz ∧ t.net = s.net ∧ t.work = s.work ∧ t.store = s.store ∧ t.power = s.power) ∧
      (s.sys.boot ≠ .running ∨ ctxState s n ≠ .free ∨ stagingFree s = false →
        exec (.load q c) s = .next (refusedWith s q (cb n 0) 3 abState))) ∧
    (accepts s q (cb n 0) 3 [5] →
      (ctxState s n = .closed ∨ ctxState s n = .opened ∨ (ctxState s n = .recovering ∧ phaseOf s n = some .rewriting) →
        ∃ t, exec (.unload q c) s = .next t ∧
        t = accepted s q (cb n 0) 3 [5] (enterUnloading s n) ∧
        ctxState t n = .unloading ∧ phaseOf t n = some .awaitGen ∧
        (∀ p i, filterOf? n (tabGet 0 (portAt t p).filters i) = true → 8 ≤ p)) ∧
      (ctxState s n = .recovering → phaseOf s n ≠ some .rewriting → exec (.unload q c) s =
        .next (accepted s q (cb n 0) 3 [5]
          (setCtx s n { ctxAt s n with td := (ctxAt s n).td.map fun t => { t with unloadNext := true } }))) ∧
      (ctxState s n = .free ∨ ctxState s n = .loading ∨ ctxState s n = .unloading →
        exec (.unload q c) s = .next (refusedWith s q (cb n 0) 3 abState)))

/-- The ends of Loading and of Unloading (R18, R483, R548): an image that cannot be read or fails a check leaves the context Free
with the cause in Last fault; one whose domains are On leaves it Closed with its sessions owned and the staging area free;
one that awaits domains asks for them. A context whose resources are returned is Free. -/
def Obligations.LoadingEndsClosedOrFree : Prop :=
  ∀ (s : State) (c : BitVec 6) (probes : List Nat),
    let n := c.toNat
    (ctxState s n = .loading → phaseOf s n = some .reading →
      (∃ t, exec (.loadComplete c none probes) s = .next t ∧ ctxState t n = .free ∧ val t (cb n 0) 0x0A = 0x0106 ∧
        (ctxAt t n).image = none) ∧
      (∀ bytes cause, loadImage s n bytes probes = .error cause → ∃ t, exec (.loadComplete c (some bytes) probes) s = .next t ∧
        ctxState t n = .free ∧ val t (cb n 0) 0x0A = cause ∧ (ctxAt t n).image = none ∧ val t 0x2020 4 = 0) ∧
      (∀ bytes l, loadImage s n bytes probes = .ok l → domainsAwaited s l.state n = [] →
        ∃ t, exec (.loadComplete c (some bytes) probes) s = .next t ∧ ctxState t n = .closed ∧
          (ctxAt t n).image = (ctxAt l.state n).image ∧ (ctxAt t n).td = none ∧ val t 0x2020 4 = 0 ∧
          (∀ k, k < 64 → bit l.image.chim.sessmask.toNat k = true → sessOwner t k = n)) ∧
      (∀ bytes l, loadImage s n bytes probes = .ok l → domainsAwaited s l.state n ≠ [] →
        exec (.loadComplete c (some bytes) probes) s =
          .next (requestAllOn (reserveFilters s n l.image.filters) (domainsAwaited s l.state n)))) ∧
    (ctxState s n = .unloading → phaseOf s n = some .rewriting → ∃ t, exec (.unloadComplete c) s = .next t ∧
      ctxState t n = .free ∧ (ctxAt t n).image = none ∧ (ctxAt t n).td = none ∧
      (∀ k, k ∈ sessionsOf s n → sessOwner t k = 0xFF) ∧
      (∀ x e, x ∈ t.work.symbols → x.2 = some e → e.1 ≠ n) ∧ (∀ r, r ∈ t.ctr.requests → tagCtx r.tag ≠ n) ∧
      (∀ d, d < 64 → d ≠ n → ctxState t d = ctxState s d ∧ ctxAt t d = ctxAt s d) ∧
      t.ctr.values = s.ctr.values ∧ t.quartz = s.quartz ∧ t.net = s.net ∧ t.power = s.power)

/-- The generation and the purge (R15, R17, R484 steps 2 to 6, R490): the generation advances by one modulo 256 unless the Flue still
lists a request under it; once every engine has reported, a recovering context has its dump written and its state
rewritten with the sticky flag words clear, or goes on into Unloading. -/
def Obligations.GenerationsAdvanceAndPurgesEnd : Prop :=
  ∀ (s : State) (c : BitVec 6),
    let n := c.toNat
    let g := (ctxGen s n + 1) % 256
    (phaseOf s n = some .awaitGen →
      (flueLists s (BitVec.ofNat 14 (64 * g + n)) = true → exec (.generationAdvance c) s = .next s) ∧
      (flueLists s (BitVec.ofNat 14 (64 * g + n)) = false → ∃ t, exec (.generationAdvance c) s = .next t ∧ ctxGen t n = g ∧
        ctxState t n = ctxState s n ∧
        phaseOf t n = some (if ctxState s n = .loading then .reading else .purging) ∧
        (∀ d, d < 64 → d ≠ n → ctxGen t d = ctxGen s d ∧ ctxState t d = ctxState s d) ∧
        t.ctr.values = s.ctr.values ∧ t.quartz = s.quartz ∧ t.net = s.net ∧ t.power = s.power)) ∧
    (∀ d, (ctxAt s n).td = some d → d.phase = .purging → (∀ e, e ∈ d.escalations → e.busy = false) →
      (ctxState s n = .recovering → d.unloadNext = false → ∃ t, exec (.purgeComplete c) s = .next t ∧
        ctxState t n = .recovering ∧ phaseOf t n = some .rewriting ∧ (ctxAt t n).frozen = false ∧
        val t (cb n 3) 2 = 0 ∧ val t (cb n 4) 2 = 0 ∧ val t (cb n 5) 2 = 0 ∧ (ashAt t s.recov.nextDump).held = true ∧
        t.ctr.values = s.ctr.values) ∧
      (ctxState s n = .recovering → d.unloadNext = true → ∃ t, exec (.purgeComplete c) s = .next t ∧
        ctxState t n = .unloading ∧ phaseOf t n = some .awaitGen) ∧
      (ctxState s n = .unloading → ∃ t, exec (.purgeComplete c) s = .next t ∧ ctxState t n = .unloading ∧
        phaseOf t n = some .rewriting))

/-- The end of a recovery (R484 step 7, R489): the time it took is recorded and logged, and the context is Closed, or Open where
Admission at start is TRUE; a fourth recovery entered within the storm window is a storm, after which the context stays Closed,
is logged and counts afresh. A window of 0 finds no storm. -/
def Obligations.RecoveriesEndClosedOrOpen : Prop :=
  ∀ (s : State) (c : BitVec 6) (d : Teardown),
    let n := c.toNat
    let took := ((elapsed s - d.began) / ns 1).toNat
    let w := val s 0x2C10 2
    let u := sootCtx (put (setCtxState s n .closed) (cb n 0x0C) 0x0E (took % 2 ^ 32)) n 0x2C02 took d.dump
    (ctxAt s n).td = some d → ctxState s n = .recovering → d.phase = .rewriting →
    ((ctxAt s n).storms.length < 4 ∨ w = 0 → inStorm s n = false) ∧
    (∀ a b e f, (ctxAt s n).storms = [a, b, e, f] → w ≠ 0 → (inStorm s n = true ↔
      a - b ≤ ns (1000000 * (w : Int)) ∧ a - e ≤ ns (1000000 * (w : Int)) ∧ a - f ≤ ns (1000000 * (w : Int)))) ∧
    ∃ t, exec (.recoveryComplete c) s = .next t ∧ (ctxAt t n).td = none ∧
      t.recov = (if inStorm s n then sootCtx u n 0x2C07 4 w else u).recov ∧
      ctxState t n = (if inStorm s n = false ∧ val s (cb n 0) 5 = 1 then .opened else .closed) ∧
      (inStorm s n = true → (ctxAt t n).storms = []) ∧ (ctxAt t n).image = (ctxAt s n).image ∧
      (inStorm s n = false → (ctxAt t n).storms = (ctxAt s n).storms) ∧ val t (cb n 0x0C) 0x0E = took % 2 ^ 32 ∧
      (∀ e, e < 64 → e ≠ n → ctxState t e = ctxState s e ∧ ctxAt t e = ctxAt s e) ∧
      t.ctr = s.ctr ∧ t.quartz = s.quartz ∧ t.net = s.net ∧ t.work = s.work ∧ t.power = s.power

/-! ### Quartz (04) -/

/-- One cycle of the time-base clock (R132, R134): every base adds 1.6 · (1 + ρ · 2^-40) ns for each cycle of its own clock, which runs
as far off 625 MHz as the reference it follows or has last followed, to its count modulo 2^32 ns, and a wrap is kept pending;
that the cycle is what a step on the empty queue does, and that the residue is kept in parts of 5 · 10^9, is the model's choice
(notes/assumptions/2 and 7). A pending step applies (R140): E:F moves by Δ modulo 2^80 (Set time: E becomes the target and F
and the fraction below it 0), the session goes from Armed to Running, Step count counts modulo 256, and a pending wrap holds it
off. -/
def Obligations.TimeBasesAdvanceAndStep : Prop :=
  (∀ (s : State) (n : Nat), s.pending = [] → n < 4 →
    let v := baseUnits (baseAt s n) + (8 * (2 ^ 40 + (baseAt s n).rho) * (10 ^ 9 + (baseAt s n).ppb)).toNat
    ∃ t, step s = .next t ∧ baseUnits (baseAt t n) = v % (5 * 10 ^ 9 * 2 ^ 72) ∧
      ((baseAt t n).pendingWrap = true ↔ (baseAt s n).pendingWrap = true ∨ 5 * 10 ^ 9 * 2 ^ 72 ≤ v) ∧
      (baseAt t n).rho = (baseAt s n).rho ∧ (baseAt t n).ppb = (baseAt s n).ppb ∧ (baseAt t n).u = (baseAt s n).u ∧ (baseAt t n).session = (baseAt s n).session ∧
      t.objs = s.objs ∧ t.net = s.net ∧ t.work = s.work ∧ t.ctxs = s.ctxs ∧ t.mgmt = s.mgmt ∧ t.power = s.power) ∧
  (∀ (s : State) (n : BitVec 2) (p : PendingStep), (baseAt s n.toNat).step = some p →
    let b := baseAt s n.toNat
    (b.pendingWrap = true → exec (.stepApply n) s = .next s) ∧
    (b.pendingWrap = false → ∃ t, exec (.stepApply n) s = .next t ∧
      let b' := baseAt t n.toNat
      (∀ d, p = .by d → (baseEF b' : Int) = ((baseEF b : Int) + d) % (2 ^ 80 : Int) ∧ b'.g = b.g ∧ b'.residue = b.residue) ∧
      (∀ v, p = .dest v → v < 2 ^ 64 → baseE b' = v ∧ b'.f = 0 ∧ b'.g = 0 ∧ b'.residue = 0) ∧
      b'.step = none ∧ b'.rho = b.rho ∧ b'.pendingWrap = false ∧
      b'.session = (if b.session = .armed then .running else b.session) ∧
      val t (0x2200 + n.toNat) 0x0B = (val s (0x2200 + n.toNat) 0x0B + 1) % 256 ∧
      (∀ m, m ≠ n.toNat → baseAt t m = baseAt s m))) ∧
  (∀ (s : State) (n : BitVec 2), (baseAt s n.toNat).step = none → exec (.stepApply n) s = .next s)

/-- The wrap event, its acknowledgement and readings of the extended time (R136), and the reference of a base (R134): lost is
status 2 with a log entry and keeps the frequency last locked; locked again is status 0, with an entry where it had been lost, and
the base then runs as far off as its reference; a reference more than 200 ppm off does not lock. -/
def Obligations.WrapsEpochsAndReferences : Prop :=
  ∀ (s : State) (n : BitVec 2),
    let b := baseAt s n.toNat
    (b.pendingWrap = false → exec (.baseWrap n) s =
      .next (setBase s n.toNat { b with n := 0, f := 0, g := 0, residue := 0, pendingWrap := true, wrapRaised := true })) ∧
    (b.pendingWrap = true → exec (.baseWrap n) s = .next (setBase s n.toNat { b with wrapRaised := true })) ∧
    (b.pendingWrap = true → b.wrapRaised = true → ∃ t, exec (.epochIncrement n) s = .next t ∧
      t = setBase s n.toNat { b with u := b.u + 1, pendingWrap := false, wrapRaised := false } ∧
      (b.u ≠ 0xFFFFFFFF → baseE (baseAt t n.toNat) = baseE b)) ∧
    (b.pendingWrap = false ∨ b.wrapRaised = false → exec (.epochIncrement n) s = .next s) ∧
    (∀ q, readable s q (0x2200 + n.toNat) 9 → exec (.extendedTimeRead q n) s =
      .next (respond (put s (0x2200 + n.toNat) 0x0A b.f.toNat) q (0x2200 + n.toNat) 9 0
        (toLe 8 ((b.u.toNat + (if b.pendingWrap then 1 else 0)) * 2 ^ 32 + b.n.toNat)))) ∧
    (b.refStatus ≠ 2 → exec (.referenceLost n) s =
      .next (soot (setBase s n.toNat { b with refStatus := 2 }) 0x2201 none n.toNat 2)) ∧
    (b.refStatus = 2 → exec (.referenceLost n) s = .next s) ∧
    (∀ ppb : Int,
      (-200000 ≤ ppb ∧ ppb ≤ 200000 → b.refStatus = 2 → exec (.referenceLocked ⟨n, ppb⟩) s =
        .next (soot (setBase s n.toNat { b with refStatus := 0, ppb := ppb }) 0x2201 none n.toNat 0)) ∧
      (-200000 ≤ ppb ∧ ppb ≤ 200000 → b.refStatus ≠ 2 → exec (.referenceLocked ⟨n, ppb⟩) s =
        .next (setBase s n.toNat { b with refStatus := 0, ppb := ppb })) ∧
      (ppb < -200000 ∨ 200000 < ppb → exec (.referenceLocked ⟨n, ppb⟩) s = .next s))

/-- The session of a base whose discipline source is 0 (R133, R138, R139, R142): arm from Idle or Running, end, a rate write and
a step or set time, each with the state it leads to, and each refused where R138 has no transition for it, where a step is
already pending, or where the base is disciplined by its PTP instance. -/
def Obligations.DisciplineSessionTransitions : Prop :=
  ∀ (s : State) (q : Requester) (n : BitVec 2),
    let b := baseAt s n.toNat
    let i := 0x2200 + n.toNat
    (ptpDisciplined s n.toNat = false → accepts s q i 5 [1] → b.session ≠ .armed →
      ∃ t, exec (.sessionArm q n) s = .next t ∧ t = accepted s q i 5 [1] (armSession s n.toNat 0) ∧
        baseAt t n.toNat = { b with session := .armed } ∧
        (b.session = .running → reg t i 0x0C 0 = (reg s i 0x0C 0 + 1) % 2 ^ 32) ∧
        (b.session = .idle → reg t i 0x0C 0 = reg s i 0x0C 0)) ∧
    (accepts s q i 5 [1] → ptpDisciplined s n.toNat = true ∨ b.session = .armed →
      exec (.sessionArm q n) s = .next (refusedWith s q i 5 abState)) ∧
    (ptpDisciplined s n.toNat = false → accepts s q i 5 [2] → b.session ≠ .idle →
      exec (.sessionEnd q n) s = .next (accepted s q i 5 [2] (setBase s n.toNat { b with session := .idle }))) ∧
    (accepts s q i 5 [2] → ptpDisciplined s n.toNat = true ∨ b.session = .idle →
      exec (.sessionEnd q n) s = .next (refusedWith s q i 5 abState)) ∧
    (∀ rate : BitVec 64, heard s q = true → served s = true → accessAbort s q i 8 = none → otherOpen s q i 8 = false →
      ((-0x20000000 ≤ rate.toInt ∧ rate.toInt ≤ 0x20000000) → ptpDisciplined s n.toNat = true →
        exec (.rateWrite q n rate) s = .next (refusedWith s q i 8 abState)) ∧
      ((-0x20000000 ≤ rate.toInt ∧ rate.toInt ≤ 0x20000000) → ptpDisciplined s n.toNat = false → exec (.rateWrite q n rate) s =
        .next (accepted s q i 8 (toLe 8 rate.toNat)
          (setBase s n.toNat { b with rho := rate.toInt, session := if b.session = .armed then .running else b.session }))) ∧
      (¬(-0x20000000 ≤ rate.toInt ∧ rate.toInt ≤ 0x20000000) →
        exec (.rateWrite q n rate) s = .next (refusedWith s q i 8 abRange))) ∧
    (∀ delta : BitVec 64, accepts s q i 6 (toLe 8 delta.toNat) →
      (ptpDisciplined s n.toNat = false ∧ b.session = .armed ∧ b.step = none → exec (.step q n delta) s =
        .next (accepted s q i 6 (toLe 8 delta.toNat) (setBase s n.toNat { b with step := some (.by delta.toInt) }))) ∧
      (ptpDisciplined s n.toNat = true ∨ b.session ≠ .armed ∨ b.step ≠ none →
        exec (.step q n delta) s = .next (refusedWith s q i 6 abState))) ∧
    (∀ target : BitVec 64, accepts s q i 7 (toLe 8 target.toNat) →
      (ptpDisciplined s n.toNat = false ∧ b.session = .armed ∧ b.step = none → exec (.setTime q n target) s =
        .next (accepted s q i 7 (toLe 8 target.toNat) (setBase s n.toNat { b with step := some (.dest target.toNat) }))) ∧
      (ptpDisciplined s n.toNat = true ∨ b.session ≠ .armed ∨ b.step ≠ none →
        exec (.setTime q n target) s = .next (refusedWith s q i 7 abState)))

/-- Pulse outputs (R152, R153) and capture inputs (R155, R156, R157): a mode write disarms or arms the output, late where the start
time of a single pulse is past and refused where the width reaches the period; the leading edge is made once the base has reached
its time, the trailing one ends it; a selected capture edge is stamped unless it comes within 20 ns of the last or finds sixteen
entries, which is counted; a read of Next stamp takes the oldest entry, or reads zeros. -/
def Obligations.PulsesAndCaptures : Prop :=
  ∀ (s : State) (k : BitVec 2),
    let i := 0x2220 + k.toNat
    let x := pulseAt s k.toNat
    let j := 0x2230 + k.toNat
    let y := captureAt s k.toNat
    let b := baseAt s (val s j 1 % 4)
    -- disarming, arming once, arming periodic, and the two refusals or late cases of arming
    (∀ q, accepts s q i 2 [0] → exec (.pulseModeWrite q k 0) s =
      .next (accepted s q i 2 [0] (put (setPulse (put s i 2 0) k.toNat { x with next := none }) i 7 0))) ∧
    (∀ q, accepts s q i 2 [1] → baseEF (baseAt s (val s i 1 % 4)) ≤ val s i 3 * 2 ^ 16 → exec (.pulseModeWrite q k 1) s =
      .next (accepted s q i 2 [1] (put (setPulse (put s i 2 1) k.toNat { x with next := some (val s i 3) }) i 7 1))) ∧
    (∀ q, accepts s q i 2 [1] → val s i 3 * 2 ^ 16 < baseEF (baseAt s (val s i 1 % 4)) → exec (.pulseModeWrite q k 1) s =
      .next (accepted s q i 2 [1]
        (soot (put (setPulse (put s i 2 1) k.toNat { x with next := none }) i 7 3) 0x2205 none k.toNat 0))) ∧
    (∀ q, accepts s q i 2 [2] → val s i 5 < val s i 4 → exec (.pulseModeWrite q k 2) s =
      .next (accepted s q i 2 [2] (put (setPulse (put s i 2 2) k.toNat
        { x with next := some (pulseNext (val s i 3) (val s i 4) (baseEF (baseAt s (val s i 1 % 4)))) }) i 7 1))) ∧
    (∀ q, accepts s q i 2 [2] → val s i 4 ≤ val s i 5 →
      exec (.pulseModeWrite q k 2) s = .next (refusedWith s q i 2 abRange)) ∧
    -- the edges
    (∀ t, x.next = some t → baseEF (baseAt s (val s i 1 % 4)) < t * 2 ^ 16 → exec (.pulseEdge k) s = .next s) ∧
    (∀ t, x.next = some t → t * 2 ^ 16 ≤ baseEF (baseAt s (val s i 1 % 4)) → val s i 2 = 2 → exec (.pulseEdge k) s =
      .next (setPulse (emit s (.pulse k.toNat (pulseLevel s k.toNat true))) k.toNat { next := some (t + val s i 4), high := true })) ∧
    (∀ t, x.next = some t → t * 2 ^ 16 ≤ baseEF (baseAt s (val s i 1 % 4)) → val s i 2 ≠ 2 → exec (.pulseEdge k) s =
      .next (put (setPulse (emit s (.pulse k.toNat (pulseLevel s k.toNat true))) k.toNat { next := none, high := true }) i 7 2)) ∧
    (x.next = none → exec (.pulseEdge k) s = .next s) ∧
    (x.high = false → exec (.pulseWidthEnd k) s = .next s) ∧
    (x.high = true → exec (.pulseWidthEnd k) s =
      .next (setPulse (emit s (.pulse k.toNat (pulseLevel s k.toNat false))) k.toNat { x with high := false })) ∧
    -- captures
    (∀ rising : Bool, bit (val s j 2) (if rising then 0 else 1) = true →
      ((∀ at_, y.last = some at_ → ns 20 < elapsed s - at_) ∧ y.fifo.length < 16 → exec (.captureEdge k rising) s =
        .next (setCapture s k.toNat
          { fifo := y.fifo ++ [{ e := baseE b, f := b.f, step := BitVec.ofNat 8 (val s (0x2200 + val s j 1 % 4) 0x0B),
                                 rising := rising }],
            last := some (elapsed s) })) ∧
      ((∃ at_, y.last = some at_ ∧ elapsed s - at_ ≤ ns 20) ∨ 16 ≤ y.fifo.length →
        exec (.captureEdge k rising) s = .next (bump32 s j 5))) ∧
    (∀ rising : Bool, bit (val s j 2) (if rising then 0 else 1) = false → exec (.captureEdge k rising) s = .next s) ∧
    (∀ q e rest, readable s q j 3 → y.fifo = e :: rest → exec (.nextStamp q k) s =
      .next (respond (setCapture s k.toNat { y with fifo := rest }) q j 3 0 (capBytes e))) ∧
    (∀ q, readable s q j 3 → y.fifo = [] → exec (.nextStamp q k) s =
      .next (respond s q j 3 0 (List.replicate 16 0)))

/-- The PTP instance of a base (R143, R144, R158, R162, R165): a role starts and stops it, and is refused while another is set or
where a one-port role has not one port; an Announce and its receipt timeout decide its master, which ends Holdover or begins it;
a Sync of the master steps, re-arms or corrects a disciplined base, and an answer to its own Delay_Req gives the path delay; its
timers and the requests it answers go out through the firmware queue of their port. The best master clock algorithm and the
messages' format are the standard's (notes/assumptions/15), and the rate its servo writes is a free value within the slew
limit (notes/assumptions/4). -/
def Obligations.PtpInstanceCommands : Prop :=
  ∀ (s : State) (n : BitVec 2) (p : BitVec 3),
    let i := 0x2210 + n.toNat
    let x := ptpAt s n.toNat
    let b := baseAt s n.toNat
    let here := ptpOn s n.toNat p.toNat
    let ports := (allPorts.filter fun a => bit (val s i 2) a).length
    -- the role
    (∀ q role, accepts s q i 1 [role] →
      (role ≠ 0 → val s i 1 = 0 → (role ≠ 1 ∧ role ≠ 2 ∨ ports = 1) →
        exec (.ptpRoleWrite q n role) s = .next (accepted s q i 1 [role] (ptpStart (put s i 1 role.toNat) n.toNat))) ∧
      (role ≠ 0 → val s i 1 ≠ 0 → exec (.ptpRoleWrite q n role) s = .next (refusedWith s q i 1 abState)) ∧
      (role = 1 ∨ role = 2 → ports ≠ 1 → exec (.ptpRoleWrite q n role) s = .next (refusedWith s q i 1 abState))) ∧
    (∀ q, accepts s q i 1 [0] → ∃ t,
      exec (.ptpRoleWrite q n 0) s = .next t ∧
      t = accepted s q i 1 [0] (put (if val s i 1 = 0 then s else ptpStop s n.toNat) i 1 0) ∧
      baseAt t n.toNat = baseAt s n.toNat) ∧
    -- Announce and the loss of a master
    (∀ d peer, here = true → ∃ t, exec (.ptpMessageRx n (.announce p d peer)) s = .next t ∧
      t = ptpDecide (noteAnnounce s n.toNat p.toNat d peer) n.toNat ∧
      (∀ y, (ptpAt t n.toNat).parent = some y → val t (0x2200 + n.toNat) 0x0D = 0 ∧ val t i 0x13 = y.data.sender.toNat / 2 ^ 16) ∧
      t.quartz.bases = s.quartz.bases ∧ t.net = s.net ∧ t.work = s.work) ∧
    (here = true → ∃ t, exec (.announceReceiptTimeout n p) s = .next t ∧
      (ptpAt t n.toNat).foreign = stillHeard s n.toNat p.toNat ∧
      (8 ≤ ptpState s n.toNat p.toNat → ptpBest (stillHeard s n.toNat p.toNat) = none →
        (ptpAt t n.toNat).parent = none ∧ val t (0x2200 + n.toNat) 0x0D = 1) ∧
      ((ptpAt t n.toNat).parent ≠ none → val t (0x2200 + n.toNat) 0x0D = 0) ∧
      (ptpBest ((stillHeard s n.toNat p.toNat).filter fun y => y.port = p.toNat) = none →
        ptpState t n.toNat p.toNat = (if val s i 1 = 1 then 4 else 6)) ∧
      t.quartz.bases = s.quartz.bases ∧ t.sys = s.sys ∧ t.net = s.net) ∧
    -- Sync and Delay_Resp from the master, Delay_Req from a slave
    (∀ sender origin correction ingress (step : BitVec 8),
      let offset := ingress - origin - correction - x.meanDelay - ival 4 s (0x2240 + p.toNat) 4 * 65536 / 1000
      let limit : Int := (val s i 0x0F * 2 ^ 40 / 1000000000 : Nat)
      let mine := fromParent s n.toNat p.toNat sender
      (here = true → mine = true → 8 ≤ ptpState s n.toNat p.toNat → step.toNat = val s (0x2200 + n.toNat) 0x0B →
        ∃ t, exec (.ptpMessageRx n (.sync p sender origin correction ingress step)) s = .next t ∧
          t = ptpSync s n.toNat p.toNat origin correction ingress ∧
          val t i 0x11 = unsign 64 offset ∧ ptpState t n.toNat p.toNat = 9 ∧
          (ptpDisciplined s n.toNat = false → t.quartz.bases = s.quartz.bases) ∧
          (ptpDisciplined s n.toNat = true → b.session = .idle →
            baseAt t n.toNat = { b with session := .armed, step := some (.by (-offset)) }) ∧
          (ptpDisciplined s n.toNat = true → b.session = .armed → b.step = none →
            (baseAt t n.toNat).session = .running ∧ -limit ≤ (baseAt t n.toNat).rho ∧ (baseAt t n.toNat).rho ≤ limit) ∧
          (ptpDisciplined s n.toNat = true → b.session = .running →
            (ptpAt t n.toNat).overs < 4 ∧
            ((baseAt t n.toNat).session = .armed → (baseAt t n.toNat).step = some (.by (-offset))) ∧
            ((baseAt t n.toNat).session = .armed ↔ 4 ≤ (if val s (0x2200 + n.toNat) 0x0E ≠ 0 ∧
              ((val s (0x2200 + n.toNat) 0x0E : Int) * 65536 < offset ∨ offset < -((val s (0x2200 + n.toNat) 0x0E : Int) * 65536))
              then x.overs + 1 else 0)))) ∧
      (here = false ∨ mine = false ∨ ptpState s n.toNat p.toNat < 8 ∨ step.toNat ≠ val s (0x2200 + n.toNat) 0x0B →
        exec (.ptpMessageRx n (.sync p sender origin correction ingress step)) s = .next s)) ∧
    (∀ sender received correction egress sequence,
      let d := (x.t21 + (received - egress - correction)) / 2
      let mine := fromParent s n.toNat p.toNat sender
      (here = true → mine = true → x.lastSync ≠ none → x.delayReq = some sequence →
        exec (.ptpMessageRx n (.delayResp p sender received correction egress sequence)) s =
          .next (setPtp (put s i 0x12 (unsign 64 d)) n.toNat { x with meanDelay := d, delayReq := none })) ∧
      (here = false ∨ mine = false ∨ x.lastSync = none ∨ x.delayReq ≠ some sequence →
        exec (.ptpMessageRx n (.delayResp p sender received correction egress sequence)) s = .next s)) ∧
    (∀ ingress correction requester sequence peer,
      (here = true → ptpState s n.toNat p.toNat = 6 →
        exec (.ptpMessageRx n (.delayReq p ingress correction requester sequence peer)) s =
          .next (ptpSend s n.toNat p.toNat 9 ingress (correction - ingress % 65536) sequence peer (toBe 10 requester.toNat))) ∧
      (here = false ∨ ptpState s n.toNat p.toNat ≠ 6 →
        exec (.ptpMessageRx n (.delayReq p ingress correction requester sequence peer)) s = .next s)) ∧
    (exec (.ptpMessageRx n .management) s = .next s ∧ exec (.ptpMessageRx n .signaling) s = .next s) ∧
    -- the timers
    (∀ timer, here = true →
      (timer = .delayReq → 8 ≤ ptpState s n.toNat p.toNat →
        exec (.ptpIntervalTimer n p timer) s = .next (ptpTimed s n.toNat p.toNat timer)) ∧
      (timer = .delayReq → ptpState s n.toNat p.toNat < 8 → exec (.ptpIntervalTimer n p timer) s = .next s) ∧
      (timer ≠ .delayReq → ptpState s n.toNat p.toNat = 6 →
        exec (.ptpIntervalTimer n p timer) s = .next (ptpTimed s n.toNat p.toNat timer)) ∧
      (timer ≠ .delayReq → ptpState s n.toNat p.toNat ≠ 6 → exec (.ptpIntervalTimer n p timer) s = .next s)) ∧
    (here = false → exec (.announceReceiptTimeout n p) s = .next s ∧
      (∀ d peer, exec (.ptpMessageRx n (.announce p d peer)) s = .next s) ∧
      (∀ timer, exec (.ptpIntervalTimer n p timer) s = .next s))

/-! ### Ports: links and the transmit side (03) -/

/-- Links (R78, R79, R82, R83, R125, R126, R495): a mode write and a restart take the link down and start training where the mode
or the training setting asks for it and the domain is On, a negotiation offering its two abilities; a link comes up with the
settings written since, and anything else that a negotiation resolves to starts it again; one that is lost counts, gives up its
frame and its replies in transmission and trains again, and past its threshold its port is retired; a training timeout counts
too. -/
def Obligations.LinksComeUpAndGoDown : Prop :=
  (∀ (s : State) (q : Requester) (b : BitVec 3),
    let p := b.toNat
    let i := 0x2100 + p
    let x := portAt s p
    let trains := (val s i 1 = 4 ∨ val s i 1 ≠ 0 ∧ val s i 0x0B = 1) ∧ domIsOn s p = true
    -- a mode write and a restart
    (∀ mode, accepts s q i 1 [mode] → ∃ t, exec (.portModeWrite q b mode) s = .next t ∧
      (let u := put (dropLink s p) i 1 mode.toNat
       t = accepted s q i 1 [mode] (linkStart (if mode = 0 then u else requestOn u p) p)) ∧ val t i 1 = mode.toNat ∧
      (portAt t p).link = (if (mode = 4 ∨ mode ≠ 0 ∧ val s i 0x0B = 1) ∧ domIsOn s p = true then .negotiating else .down) ∧
      (portAt t p).sending = [] ∧ (portAt t p).filters = x.filters ∧ t.quartz = s.quartz ∧ t.store = s.store) ∧
    (accepts s q i 0x0C [1] → ∃ t, exec (.restartLink q b) s = .next t ∧
      t = accepted s q i 0x0C [1] (linkStart (dropLink s p) p) ∧
      (portAt t p).link = (if trains then .negotiating else .down) ∧ (portAt t p).sending = [] ∧ t.quartz = s.quartz) ∧
    -- coming up
    (∀ speed fec, linkUp x = false → linkAllowed s p speed fec = true →
      ∃ t, exec (.linkUp b speed fec) s = .next t ∧ linkSpeed (portAt t p) = some speed ∧ (portAt t p).fec = fec ∧
        (portAt t p).penable = val s i 8 ∧ (portAt t p).frag = val s i 9 ∧ (portAt t p).verifyMs = val s i 0x0A ∧
        val t (0x2110 + p) 3 = (if val s i 8 = 0 then 0 else if val s i 8 = 1 then 1 else 2) ∧
        (portAt t p).filters = x.filters ∧ (portAt t p).oper = x.oper ∧
        t.sys.out = s.sys.out ++ (if val s i 8 = 1 then [.mPacket p false] else []) ∧
        (∀ k, k ≠ p → portAt t k = portAt s k) ∧ t.quartz = s.quartz ∧ t.work = s.work ∧ t.chim = s.chim) ∧
    (∀ speed fec, linkUp x = false → linkAllowed s p speed fec = false → exec (.linkUp b speed fec) s =
      .next (if val s i 1 = 4 ∧ x.link = .negotiating then linkStart s p else s)) ∧
    (∀ speed fec, linkUp x = true → exec (.linkUp b speed fec) s = .next s) ∧
    -- going down
    (linkUp x = true → ∃ t, exec (.linkDown b) s = .next t ∧
      (let u := strike (linkStart (dropLink s p) p) 6 p
       t = (if u.1 then retirePort u.2 p else u.2) ∧
       (u.1 = true → (domAt t p).retired = true ∧ (portAt t p).link = .down) ∧
       (u.1 = false → (portAt t p).link = (if trains then .negotiating else .down))) ∧
      (portAt t p).sending = [] ∧ (∀ y, (portAt t p).tx = some y → y.lost = true) ∧
      reg t (0x2110 + p) 0x14 0 = (reg s (0x2110 + p) 0x14 0 + 1) % 2 ^ 32 ∧ t.quartz = s.quartz) ∧
    (linkUp x = false → exec (.linkDown b) s = .next s) ∧
    (x.link = .negotiating → exec (.linkTrainingTimeout b) s = .next (linkStart (bump32 s (0x2110 + p) 0x14) p)) ∧
    (x.link ≠ .negotiating → exec (.linkTrainingTimeout b) s = .next s)) ∧
  -- what the two shared operations do
  (∀ (s : State) (p : Nat),
    let trains := (val s (0x2100 + p) 1 = 4 ∨ val s (0x2100 + p) 1 ≠ 0 ∧ val s (0x2100 + p) 0x0B = 1) ∧ domIsOn s p = true
    portAt (linkStart s p) p = { portAt s p with link := if trains then .negotiating else .down } ∧
    (linkStart s p).sys.out = s.sys.out ++ (if trains ∧ val s (0x2100 + p) 1 = 4
      then [.negotiate p [.cr25G, .crS25G] (val s (0x2100 + p) 2 = 1)] else [])) ∧
  (∀ (s : State) (p : Nat), (portAt (dropLink s p) p).link = .down ∧ (portAt (dropLink s p) p).sending = [] ∧
    val (dropLink s p) (0x2110 + p) 3 = 0 ∧
    (linkUp (portAt s p) = true → ∀ r y, r ∈ (portAt s p).sending → replyAt s r = some y →
      ∃ z, replyAt (dropLink s p) r = some z ∧ z.state = .ended ∧ z.commit = some false))

/-- Transmission from the rings and the firmware queue, and the verification of frame preemption (R110, R111, R112, R120, R121): the
scheduler takes one frame while the port carries none and no reply waits for it; one that cannot be sent is handed back with its
errors, one that can leaves padded and with its FCS, and once it has left is counted and handed back with its stamp; one lost with
its link is handed back with ERR_LINK; a verification that was not answered is tried three times. The pad bytes are the model's
choice (notes/assumptions/46). -/
def Obligations.FramesAreSentAndHandedBack : Prop :=
  ∀ (s : State) (b : BitVec 3),
    let p := b.toNat
    let x := portAt s p
    (∀ heads,
      let fs := heads.filterMap (headFrame s p) ++ x.fwQueue.head?.toList
      (x.tx ≠ none → exec (.txFrameStart b heads) s = .next (resumeTx s p)) ∧
      (x.tx = none → x.sending ≠ [] ∨ expressWaits s p = true ∨ scheduled s p fs = none →
        exec (.txFrameStart b heads) s = .next s) ∧
      (∀ f, x.tx = none → x.sending = [] → expressWaits s p = false → scheduled s p fs = some f →
        (txError s p f ≠ 0 → exec (.txFrameStart b heads) s =
          .next (followUp (handTx (takeTx s p f) f (txError s p f) none 0) p f true (0, 0))) ∧
        (txError s p f = 0 → ∃ t, exec (.txFrameStart b heads) s = .next t ∧
          (let wire := padded (oneStepData f ((egressStamps s p).getD (txBase s p f) (0, 0)))
           let u := takeTx s p f
           let now : TxNow :=
             { frame := f, wire := wire ++ fcsBytes wire, sent := 0, fragments := 0, start := elapsed s + idleWait s p,
               stamp := egressStamps s p, preempted := false, lost := false }
           t = emit (setPort u p { portAt u p with tx := some now }) (.frameStart p f)) ∧
          tabGet 0x80 (portAt t p).served f.tc.toNat = f.src ∧ (portAt t p).queue = x.queue ∧
          (∀ k, k ≠ p → portAt t k = portAt s k) ∧ t.net.sram = s.net.sram))) ∧
    (x.tx = none → exec (.txFrameDone b) s = .next s) ∧
    (∀ t, x.tx = some t → t.lost = true →
      exec (.txFrameDone b) s = .next (followUp (handTx (setPort s p { x with tx := none }) t.frame (2 ^ 21) none
        (txBase s p t.frame)) p t.frame true (0, 0))) ∧
    (∀ t, x.tx = some t → t.lost = false → t.preempted = true → exec (.txFrameDone b) s = .next s) ∧
    (∀ f, x.tx = some f → f.preempted = false → f.lost = false → ∃ t, exec (.txFrameDone b) s = .next t ∧
      (let n := txBase s p f.frame
       let st := f.stamp.getD n (0, 0)
       let u := bumpBy 64 (bump (leaveGap (setPort s p { x with tx := none }) p 12) (0x2110 + p) 0x0D) (0x2110 + p) 0x0E f.wire.length
       let v := handTx (emit u (.frameOut p f.frame (f.wire.drop f.sent))) f.frame 0 (some st) n
       t = followUp (if f.frame.src < 0x40 then bump v (0x2140 + f.frame.src) 0x0A else v) p f.frame false (stampE s n st.1, st.2)) ∧
      (portAt t p).tx = none ∧ reg t (0x2110 + p) 0x0D 0 = (reg s (0x2110 + p) 0x0D 0 + 1) % 2 ^ 64 ∧
      reg t (0x2110 + p) 0x0E 0 = (reg s (0x2110 + p) 0x0E 0 + f.wire.length) % 2 ^ 64 ∧
      t.work = s.work ∧ t.chim = s.chim ∧ t.ctxs = s.ctxs) ∧
    (∀ f err st n, (0x40 ≤ f.src → handTx s f err st n = s) ∧
      (f.src < 0x40 → ringHead (handTx s f err st n) f.src = (ringHead s f.src + f.descs.length) % max 1 (ringSize s f.src))) ∧
    (val s (0x2110 + p) 3 = 1 →
      (x.verifyTries < 3 → exec (.preemptionVerifyTimer b) s =
        .next (emit (setPort s p { x with verifyTries := x.verifyTries + 1 }) (.mPacket p false))) ∧
      (3 ≤ x.verifyTries → exec (.preemptionVerifyTimer b) s = .next (put s (0x2110 + p) 3 3)) ∧
      (linkUp x = true → exec (.verifyResponse b true) s = .next (put s (0x2110 + p) 3 2))) ∧
    (val s (0x2110 + p) 3 ≠ 1 → exec (.preemptionVerifyTimer b) s = .next s ∧ exec (.verifyResponse b true) s = .next s) ∧
    (linkUp x = true → exec (.verifyResponse b false) s = .next (emit s (.mPacket p true))) ∧
    (linkUp x = false → ∀ r, exec (.verifyResponse b r) s = .next s)

/-- Gate control lists (R116, R117, R118, R128): an entry takes effect at its instant, and the frame in transmission resumes or yields
with its gate; a disabled list opens every gate; a change without a cycle time is refused and counted, and any other waits for
its start, in place of one that waits already, and then becomes operational. A frame yields only while preemption is active,
at its next preemption point. -/
def Obligations.GateListsRunAndChange : Prop :=
  ∀ (s : State) (q : Requester) (b : BitVec 3),
    let p := b.toNat
    let x := portAt s p
    let i := 0x2130 + p
    let now := baseE (baseAt s (gateBase s p))
    (val s i 1 ≠ 0 → ∃ t, exec (.gateEntryAdvance b) s = .next t ∧
      t = gateTx (setPort s p { x with oper := gateRun x.oper (adminStates s p) now }) p ∧
      (portAt t p).oper = gateRun x.oper (adminStates s p) now ∧
      (x.tx = none → t = setPort s p { x with oper := gateRun x.oper (adminStates s p) now }) ∧
      (∀ k, k ≠ p → portAt t k = portAt s k) ∧ t.quartz = s.quartz ∧ t.work = s.work ∧ t.chim = s.chim) ∧
    (val s i 1 = 0 → exec (.gateEntryAdvance b) s = .next (gateTx s p)) ∧
    (∀ f, x.tx = some f →
      (gateOpen s p f.frame.tc.toNat = true → macHeld s p = false → gateTx s p = resumeTx s p) ∧
      (gateOpen s p f.frame.tc.toNat = false ∨ macHeld s p = true → gateTx s p = preemptTx s p)) ∧
    (∀ f k, x.tx = some f → f.preempted = false → f.lost = false → preemptActive s p = true → preemptPoint s p f = some k →
      preemptTx s p = emit (bump (setPort s p { x with
        tx := some { f with preempted := true, sent := f.sent + k, fragments := f.fragments + 1 },
        idleAt := fragmentEnd s p f k }) (0x2110 + p) 0x10)
        (.fragmentOut p f.fragments (slice f.wire f.sent k ++ mcrcBytes (f.wire.take (f.sent + k))))) ∧
    (∀ f, x.tx = some f → f.preempted = true ∨ f.lost = true ∨ preemptActive s p = false ∨ preemptPoint s p f = none →
      preemptTx s p = s) ∧
    (∀ v, accepts s q i 7 [v] →
      (val s i 2 ≠ 0 → val s i 5 = 0 → exec (.configChange q b v) s = .next (refusedWith (bump32 s i 0x0B) q i 7 abRange)) ∧
      (val s i 2 = 0 ∨ val s i 5 ≠ 0 → exec (.configChange q b v) s =
        .next (accepted s q i 7 [v] (setPort s p { x with change := some {
          list := x.adminList.take (val s i 2), base := val s i 4, cycle := val s i 5,
          start := if now < val s i 4 then val s i 4 else gateCycleStart (val s i 4) (val s i 5) (now + 1) } })))) ∧
    (x.change = none → exec (.configChangeApply b) s = .next s) ∧
    (∀ c, x.change = some c → now < c.start → exec (.configChangeApply b) s = .next s) ∧
    (∀ c, x.change = some c → c.start ≤ now → ∃ t, exec (.configChangeApply b) s = .next t ∧
      (portAt t p).change = none ∧ (portAt t p).oper.list = c.list ∧ (portAt t p).oper.cycle = c.cycle ∧
      (portAt t p).oper.base = c.base ∧ (portAt t p).oper.since = c.start ∧ val t i 9 = c.base ∧
      (x.tx = none → (portAt t p).tx = none) ∧ (∀ k, k ≠ p → portAt t k = portAt s k))

/-! ### Ports: receiving frames (03, 05) -/

/-- Arrival and steering (R81, R87, R91, R94, R95, R96, R98, R147): a frame takes its ingress stamps and the filter table as it stands,
an express one interrupts a frame in reception while preemption is active, and one whose address does not pass counts; MAC
control frames are discarded, the lowest-indexed valid entry that matches decides and counts its hit, and where none does
the port's default action holds, as it stood when the frame started. -/
def Obligations.FramesArriveAndAreSteered : Prop :=
  (∀ (s : State) (b : BitVec 3) (dest : BitVec 48) (express : Bool),
    let p := b.toNat
    let x := portAt s p
    let f := s.net.nextFrame
    linkUp x = true → (x.rx = none ∨ (express = true ∧ x.held = none ∧ val s (0x2110 + p) 3 = 2)) →
    ∃ t y, exec (.rxFrameStart b dest express) s = .next t ∧ frameAt t f = some y ∧ y.port = p ∧ y.bytes = [] ∧
      y.stamps = ingressStamps s p ∧ y.table = x.filters ∧ y.steer = none ∧ y.addressed = addressPasses s p dest ∧
      y.lmax = lmax s p ∧ y.dflt = val s (0x2100 + p) 6 ∧
      (portAt t p).rx = some f ∧ (portAt t p).held = (if x.rx.isSome then x.rx else x.held) ∧ t.net.nextFrame = f + 1 ∧
      (addressPasses s p dest = true → t.objs = s.objs) ∧
      (addressPasses s p dest = false → reg t (0x2110 + p) 0x0A 0 = (reg s (0x2110 + p) 0x0A 0 + 1) % 2 ^ 64) ∧
      (∀ k, k ≠ f → frameAt t k = frameAt s k) ∧ t.work = s.work ∧ t.chim = s.chim ∧ t.quartz = s.quartz ∧ t.net.sram = s.net.sram) ∧
  (∀ (s : State) (b : BitVec 3) (dest : BitVec 48) (express : Bool),
    let x := portAt s b.toNat
    linkUp x = false ∨ (x.rx ≠ none ∧ (express = false ∨ x.held ≠ none ∨ val s (0x2110 + b.toNat) 3 ≠ 2)) →
      exec (.rxFrameStart b dest express) s = .next s) ∧
  (∀ (s : State) (f : Nat) (x : Frame), frameAt s f = some x → x.steer = none → x.addressed = true → 14 ≤ x.bytes.length →
    let t := steerFrame s f
    (beArrived x.bytes 12 2 = some 0x8808 → frameAt t f = some { x with steer := some (none, .drop) } ∧
      reg t (0x2110 + x.port) 0x0C 0 = (reg s (0x2110 + x.port) 0x0C 0 + 1) % 2 ^ 64) ∧
    (beArrived x.bytes 12 2 ≠ some 0x8808 → decidingEntry x.table x.bytes (frameFinal x) = none → t = s) ∧
    (beArrived x.bytes 12 2 ≠ some 0x8808 → decidingEntry x.table x.bytes (frameFinal x) = some none →
      (frameAt t f).bind (·.steer) = some (none, defaultSteer x) ∧
      (defaultSteer x = .drop → reg t (0x2110 + x.port) 0x0B 0 = (reg s (0x2110 + x.port) 0x0B 0 + 1) % 2 ^ 64)) ∧
    (∀ k e, beArrived x.bytes 12 2 ≠ some 0x8808 → decidingEntry x.table x.bytes (frameFinal x) = some (some (k, e)) →
      (frameAt t f).bind (·.steer) = some (some k, entrySteer e) ∧
      tabGet 0 (portAt t x.port).hits k = tabGet 0 (portAt s x.port).hits k + 1 ∧
      (entrySteer e = .drop → reg t (0x2110 + x.port) 0x0B 0 = (reg s (0x2110 + x.port) 0x0B 0 + 1) % 2 ^ 64))) ∧
  (∀ (s t : State) (b : BitVec 3) (bytes : Bytes) (f : Nat), arrive s b.toNat bytes = some (f, t) →
    exec (.filterDecided b bytes) s = .next (laneRun (steerFrame t f) f)) ∧
  (∀ (s : State) (b : BitVec 3) (bytes : Bytes), arrive s b.toNat bytes = none → exec (.filterDecided b bytes) s = .next s)

/-- The end of a frame's reception (R85, R89, R91, R126, R588): its lane is closed with what has arrived, an interrupted frame goes
on, and byte L_max + 1 cuts the frame, L_max being that of the frame's start; after a cut the end only ends the reception. A
fragment too short for the port's setting is a code error; RS-FEC codewords count while the link runs RS-FEC. -/
def Obligations.FramesEndAreCutOrAborted : Prop :=
  (∀ (s : State) (b : BitVec 3) (bytes : Bytes) (tail : RxTail),
    let p := b.toNat
    let v := countFec s p tail
    ((portAt s p).rx = none → exec (.rxFrameEnd b bytes tail) s = .next v ∧ exec (.rxAbort b bytes) s = .next s ∧
      exec (.rxOversize b bytes) s = .next s) ∧
    (∀ f x, (portAt s p).rx = some f → frameAt s f = some x → x.cut ≠ none →
      exec (.rxFrameEnd b bytes tail) s = .next (endCutFrame v p f x bytes.length) ∧
      exec (.rxAbort b bytes) s = .next (endCutFrame s p f x bytes.length) ∧ exec (.rxOversize b bytes) s = .next s) ∧
    (∀ f x, (portAt s p).rx = some f → frameAt s f = some x → x.cut = none →
      (arrive v p bytes = none → exec (.rxFrameEnd b bytes tail) s = .next v) ∧
      (arrive s p bytes = none → exec (.rxAbort b bytes) s = .next s) ∧
      (∀ g t y, arrive v p bytes = some (g, t) → frameAt t f = some y → exec (.rxFrameEnd b bytes tail) s =
        .next (freeRx (endFrame (setFrame t f { y with
          ended := some bytes.length, codeError := tail.codeError || fragmentError v p y tail.fragments }) f) p)) ∧
      (∀ g t y, arrive s p bytes = some (g, t) → frameAt t f = some y → exec (.rxAbort b bytes) s =
        .next (freeRx (endFrame (setFrame t f { y with ended := some bytes.length, cut := some .abort }) f) p)) ∧
      (∀ t y, arrive s p (bytes.take x.lmax) = some (f, t) → frameAt t f = some y → bytes.length = x.lmax + 1 →
        exec (.rxOversize b bytes) s = .next (endFrame (setFrame t f { y with cut := some .oversize }) f)) ∧
      (bytes.length ≠ x.lmax + 1 → exec (.rxOversize b bytes) s = .next s)) ∧
    ((portAt (freeRx s p) p).rx = (portAt s p).held ∧ (portAt (freeRx s p) p).held = none) ∧
    ((portAt s p).fec = false → v = s) ∧
    ((portAt s p).fec = true → reg v (0x2110 + p) 0x15 0 = (reg s (0x2110 + p) 0x15 0 + tail.corrected) % 2 ^ 64 ∧
      reg v (0x2110 + p) 0x16 0 = (reg s (0x2110 + p) 0x16 0 + tail.uncorrected) % 2 ^ 64)) ∧
  (∀ (s : State) (p f n : Nat) (x : Frame), frameAt s f = some x →
    (frameAt (endCutFrame s p f x n) f).bind (·.ended) = some n ∧ (portAt (endCutFrame s p f x n) p).rx = (portAt s p).held) ∧
  (∀ (s : State) (p : Nat) (x : Frame) (fs : List Nat), fragmentError s p x fs = true ↔
    fs ≠ [] ∧ (x.express = true ∨ preemptActive s p = false ∨ ∃ n, n ∈ fs ∧ n < 64 * (1 + (portAt s p).frag)))

/-- The verdicts of a frame (R85, R86, R187, R189, R190): the MAC's is BAD with the first cause that holds, each counted in its
counter; the effective one is BAD with the MAC's or a length mismatch, suppresses the frame's replies that wait for release, and is
GOOD otherwise once the MAC says GOOD. Each is given once. -/
def Obligations.VerdictsOfReceivedFrames : Prop :=
  ∀ (s : State) (f : Nat) (x : Frame), frameAt s f = some x →
    (x.mac = none → frameFinal x = true →
      (badCause x = none → exec (.macVerdict f) s = .next (bumpBy 64 (bump (setFrame s f { x with mac := some .good })
        (0x2110 + x.port) 4) (0x2110 + x.port) 5 x.bytes.length)) ∧
      (∀ c, badCause x = some c → exec (.macVerdict f) s =
        .next (bump (setFrame s f { x with mac := some (.bad c) }) (0x2110 + x.port) (causeCounter c)))) ∧
    (x.eff = none →
      ((∃ c, x.mac = some (.bad c)) ∨ x.mismatch = true → ∃ t, exec (.effectiveVerdict f) s = .next t ∧
        (frameAt t f).bind (·.eff) = some false ∧
        (∀ r y, replyAt t r = some y → y.frame = f → y.state ≠ .waiting ∧ y.state ≠ .queued) ∧
        t.quartz = s.quartz ∧ t.ctr.values = s.ctr.values ∧ t.power = s.power) ∧
      (x.mac = some .good → x.mismatch = false → exec (.effectiveVerdict f) s = .next (setFrame s f { x with eff := some true })) ∧
      (x.mac = none → x.mismatch = false → exec (.effectiveVerdict f) s = .next s)) ∧
    (x.mac ≠ none ∨ frameFinal x = false → exec (.macVerdict f) s = .next s) ∧
    (x.eff ≠ none → exec (.effectiveVerdict f) s = .next s) ∧
    (badCause x = some .abort ↔ x.cut ≠ none ∧ x.cut ≠ some .oversize) ∧
    (badCause x = some .oversize ↔ x.cut = some .oversize) ∧
    (badCause x = some .runt ↔ x.cut = none ∧ x.bytes.length < 64) ∧
    (badCause x = some .code ↔ x.cut = none ∧ 64 ≤ x.bytes.length ∧ x.codeError = true) ∧
    (badCause x = some .fcs ↔ x.cut = none ∧ 64 ≤ x.bytes.length ∧ x.codeError = false ∧
      leAt x.bytes (x.bytes.length - 4) 4 ≠ fcs32 (x.bytes.take (x.bytes.length - 4)))

/-- Symbol lookups and decision points (R61, R180, R183, R184): the symbol read as its last byte arrives gives the message its instrument
or makes it a miss, which counts, and the last bit of the decision offset decides it. Where the TYPE byte is still to come the
arrival is kept, and the lookup is that of the table as it stood (notes/assumptions/20). -/
def Obligations.MessagesAreLookedUpAndDecided : Prop :=
  (∀ (s : State) (b : BitVec 3) (bytes : Bytes), arrive s b.toNat bytes = none →
    exec (.symbolLookup b bytes) s = .next s ∧ exec (.decisionPoint b bytes) s = .next s) ∧
  (∀ (s t : State) (b : BitVec 3) (bytes : Bytes) (f : Nat), arrive s b.toNat bytes = some (f, t) →
    let r := laneRun t f
    (laneMessage r f = none →
      exec (.symbolLookup b bytes) s = .next (noteArrival r f) ∧ exec (.decisionPoint b bytes) s = .next (noteArrival r f)) ∧
    (∀ h, laneMessage r f = some h →
      let m := (openMessage r f h).1
      let u := lookupMessage (openMessage r f h).2 m h
      (lookupNow h = false → exec (.symbolLookup b bytes) s = .next r) ∧
      (∀ x, lookupNow h = true → msgAt u m = some x →
        (x.instr ≠ none → exec (.symbolLookup b bytes) s = .next u) ∧
        (x.instr = none → exec (.symbolLookup b bytes) s = .next (closeMessage (missMessage u m) f h))) ∧
      (h.frame.bytes.length = h.lane.next + decideAt h →
        exec (.decisionPoint b bytes) s = .next (laneRun (decideMessage r f h) f)) ∧
      (h.frame.bytes.length ≠ h.lane.next + decideAt h → exec (.decisionPoint b bytes) s = .next r))) ∧
  (∀ (s : State) (m : Nat) (h : AtHead) (x : Msg), msgAt s m = some x →
    (x.looked = true → lookupMessage s m h = s) ∧
    (x.looked = false → ∀ sym, messageSymbol h = some sym →
      msgAt (lookupMessage s m h) m = some { x with looked := true, symbol := some sym, instr := lookedUp s h sym }) ∧
    (∀ sym, arrivalAt h (h.lane.next + symbolEnd h.layout) = none → lookedUp s h sym = symbolLookup s h.ctx sym) ∧
    (∀ sym a, arrivalAt h (h.lane.next + symbolEnd h.layout) = some a → lookedUp s h sym = a.instr) ∧
    (msgAt (missMessage s m) m = some { x with fate := .miss } ∧
      reg (missMessage s m) (cb x.ctx 2) 0x0A 0 = (reg s (cb x.ctx 2) 0x0A 0 + 1) % 2 ^ 64))

/-- Every symbol entry stays in one of its key's two slots (R183, R185). -/
def Obligations.SymbolsStayInTheirSlots : Prop :=
  ∀ (s t : State), symbolsInv s → step s = .next t → symbolsInv t

/-- Symbol edits (R185, R195): an insertion makes the key found with its instrument and moves others only so that every one of them
is still found; a removal takes away one entry and no other; both are refused for a context that is not loaded. -/
def Obligations.SymbolEditsKeepTheOtherKeys : Prop :=
  ∀ (s : State) (q : Requester) (c : BitVec 6) (instr : BitVec 16) (sym : BitVec 64),
    let n := c.toNat
    let i := cb n 2
    (accepts s q i 0x13 (symbolEdit 1 instr sym) → symbolsInv s → isLoaded s n = true → instr.toNat < 16384 →
      inInstruments s n instr.toNat = true → symbolFind s n sym = none → hasSymbol s n instr.toNat = false →
      (∀ k u, makeRoom s n sym = some (k, u) → ∃ t, exec (.symbolInsert q c instr sym) s = .next t ∧
        symbolLookup t n sym = some instr.toNat ∧
        (∀ d v j, symbolLookup s d v = some j → symbolLookup t d v = some j) ∧
        t.objs = s.objs ∧ t.ctxs = s.ctxs ∧ t.work.msgs = s.work.msgs ∧ t.work.rows = s.work.rows ∧ t.work.slots = s.work.slots) ∧
      (makeRoom s n sym = none → exec (.symbolInsert q c instr sym) s = .next (refusedWith s q i 0x13 abMemory))) ∧
    (accepts s q i 0x13 (symbolEdit 1 instr sym) → instr.toNat < 16384 →
      (isLoaded s n = false → exec (.symbolInsert q c instr sym) s = .next (refusedWith s q i 0x13 abState)) ∧
      (isLoaded s n = true → inInstruments s n instr.toNat = false →
        exec (.symbolInsert q c instr sym) s = .next (refusedWith s q i 0x13 abRange)) ∧
      (isLoaded s n = true → inInstruments s n instr.toNat = true → symbolFind s n sym ≠ none ∨ hasSymbol s n instr.toNat = true →
        exec (.symbolInsert q c instr sym) s = .next (refusedWith s q i 0x13 abState))) ∧
    (accepts s q i 0x13 (symbolEdit 1 instr sym) → 16384 ≤ instr.toNat →
      exec (.symbolInsert q c instr sym) s = .next (refusedWith s q i 0x13 abRange)) ∧
    (accepts s q i 0x13 (symbolEdit 2 0 sym) → isLoaded s n = true →
      (∀ k j, symbolFind s n sym = some (k, j) → ∃ t, exec (.symbolRemove q c sym) s = .next t ∧
        t = accepted s q i 0x13 (symbolEdit 2 0 sym) (setSymbol s k none) ∧
        (∀ d v, (d ≠ n ∨ v ≠ sym) → symbolLookup t d v = symbolLookup s d v)) ∧
      (symbolFind s n sym = none → exec (.symbolRemove q c sym) s = .next (refusedWith s q i 0x13 abState))) ∧
    (accepts s q i 0x13 (symbolEdit 2 0 sym) → isLoaded s n = false →
      exec (.symbolRemove q c sym) s = .next (refusedWith s q i 0x13 abState))

/-! ### Ports: slow-path rings (03) -/

/-- Chains of a frame (R104, R103, R106, R108, R587): one that is due joins its ring's queue after those that stand before it in the
order of R104; the one at the front is dropped where the ring is none or has no size, redirected to ring 0x00 where its memory
cannot be reached, and otherwise written once the bytes and the verdict that it needs have come. A write of a ring in Stoker
SRAM changes no byte but those of the buffers it fills and of the descriptors it hands back. -/
def Obligations.RingChainsAreWritten : Prop :=
  (∀ (s : State) (f : Nat) (x : Frame) (kind : ChainKind), frameAt s f = some x →
    (x.bytes.length < 64 → exec (.ringChainDue f kind) s = .next s) ∧
    (64 ≤ x.bytes.length → exec (.ringChainDue f kind) s = .next ((chainsUpTo kind).foldl (fun u k => dueChain u f k) s)) ∧
    (kind ∈ x.due ∨ chainOf s f x kind = none → dueChain s f kind = s) ∧
    (∀ r ch, kind ∉ x.due → chainOf s f x kind = some (r, ch) → dueChain s f kind =
      setRing (setFrame s f { x with due := x.due ++ [kind] }) r { ringAt s r with chains := (ringAt s r).chains ++ [ch] })) ∧
  (∀ (s : State) (b : BitVec 6) (ds : List Bytes) (written : Bool), (ringAt s b.toNat).chains = [] →
    exec (.ringChainWrite b ds written) s = .next s) ∧
  (∀ (s : State) (b : BitVec 6) (ds : List Bytes) (written : Bool) (ch : Chain) (rest : List Chain) (x : Frame),
    let r := b.toNat
    (ringAt s r).chains = ch :: rest → frameAt s ch.frame = some x →
    let t := setRing s r { ringAt s r with chains := rest }
    (ringDir s r ≠ 1 ∨ ringSize s r = 0 ∨ ch.lost = true → exec (.ringChainWrite b ds written) s = .next (dropChain t r ch x.port)) ∧
    (ringDir s r = 1 → ringSize s r ≠ 0 → ch.lost = false → 8 ≤ r → ringReachable s r = false →
      exec (.ringChainWrite b ds written) s =
        .next (setRing (bump t (0x2140 + r) 0x0D) 0 { ringAt t 0 with chains := (ringAt t 0).chains ++ [ch] })) ∧
    (ringDir s r = 1 → ringSize s r ≠ 0 → ch.lost = false → r < 8 ∨ ringReachable s r = true →
      exec (.ringChainWrite b ds written) s = .next ((writeChain t r x ch ds written).getD s) ∧
      (writeChain t r x ch ds written = none ↔ x.mac = none ∧
        (let w := fillChain (ds.take (ringAvail s r)) (ringHead s r) (ringSize s r) (chainData x)
         w.1 ≠ [] ∧ w.2.2.1 = []))) ∧
    (ringDir s r = 1 → ringSize s r ≠ 0 → ch.lost = false → r < 8 → x.mac ≠ none →
      let w := fillChain (ds.take (ringAvail s r)) (ringHead s r) (ringSize s r) (chainData x)
      ∃ u, exec (.ringChainWrite b ds written) s = .next u ∧ (ringAt u r).chains = rest ∧ ringHead u r = w.2.2.2 ∧
        (w.1 = [] → reg u (0x2140 + r) 0x0B 0 = (reg s (0x2140 + r) 0x0B 0 + 1) % 2 ^ 64) ∧
        (w.1 ≠ [] → w.2.2.1 = [] → reg u (0x2140 + r) 0x0A 0 = (reg s (0x2140 + r) 0x0A 0 + 1) % 2 ^ 64) ∧
        (∀ a, (∀ d, d ∈ w.1 → a < d.addr % 2 ^ 20 ∨ d.addr % 2 ^ 20 + d.data.length ≤ a) →
          (∀ d, d ∈ w.1 → a < (ringBase s r + 32 * d.index + 8) % 2 ^ 20 ∨ (ringBase s r + 32 * d.index + 8) % 2 ^ 20 + 24 ≤ a) →
          (∀ z, z ∈ w.2.1 → a < (ringBase s r + 32 * z + 8) % 2 ^ 20 ∨ (ringBase s r + 32 * z + 8) % 2 ^ 20 + 8 ≤ a) →
          memRead u.net.sram a = memRead s.net.sram a) ∧
        u.work = s.work ∧ u.chim = s.chim ∧ u.quartz = s.quartz))

/-- The objects of a ring and of a filter table (R92, R98, R100, R103, R109, R127, R129): Tail moves below the size, and where the
ring lies in a wafer core its new descriptors are read; a setting is written while the ring is free to take it, and refused where
its value or the ring's state forbids it; a notification that is due is given, and a filter entry is the integrator's to write
where its own rules hold. -/
def Obligations.RingAndFilterWrites : Prop :=
  ∀ (s : State) (q : Requester) (b : BitVec 6) (p : BitVec 3),
    let r := b.toNat
    let i := 0x2140 + r
    let j := 0x2120 + p.toNat
    ((ringAt s r).unnotified ≠ 0 → exec (.ringNotifyTimer b) s = .next (notifyRing s r)) ∧
    ((ringAt s r).unnotified = 0 → exec (.ringNotifyTimer b) s = .next s) ∧
    (∀ (u : State) (old : Nat), r < 8 → fetchDescriptors u r old = u) ∧
    (∀ v : BitVec 16, accepts s q i 5 (toLe 2 v.toNat) →
      (v.toNat < ringSize s r → exec (.ringTailWrite q b v) s =
        .next (accepted s q i 5 (toLe 2 v.toNat) (fetchDescriptors (put s i 5 v.toNat) r (ringTail s r)))) ∧
      (ringSize s r ≤ v.toNat → exec (.ringTailWrite q b v) s = .next (refusedWith s q i 5 abRange))) ∧
    (∀ (sub : BitVec 8) (value : BitVec 64), let data := objBytes i sub.toNat value.toNat
      let free := if r = 0 then sub = 1 ∨ (ringHead s 0 = ringTail s 0 ∧ (ringAt s 0).chains = [])
        else ringDir s r = 0 ∨ (sub = 1 ∧ leNat data = 0)
      accepts s q i sub.toNat data → ringConfigSub sub.toNat = true → ringValueOk r sub.toNat (leNat data) = true → free →
      ∃ t, exec (.ringConfigWrite q b sub value) s = .next t ∧ val t i sub.toNat = leNat data ∧
        (sub = 2 ∨ sub = 3 → ringHead t r = 0 ∧ ringTail t r = 0) ∧ (ringAt t r).chains = (ringAt s r).chains ∧
        t.net.sram = s.net.sram ∧ t.net.ports = s.net.ports ∧ t.work = s.work ∧ t.quartz = s.quartz) ∧
    (∀ (sub : BitVec 8) (value : BitVec 64), let data := objBytes i sub.toNat value.toNat
      let free := if r = 0 then sub = 1 ∨ (ringHead s 0 = ringTail s 0 ∧ (ringAt s 0).chains = [])
        else ringDir s r = 0 ∨ (sub = 1 ∧ leNat data = 0)
      accepts s q i sub.toNat data → ringConfigSub sub.toNat = true →
      (ringValueOk r sub.toNat (leNat data) = true → ¬free →
        exec (.ringConfigWrite q b sub value) s = .next (refusedWith s q i sub.toNat abState)) ∧
      (ringValueOk r sub.toNat (leNat data) = false →
        exec (.ringConfigWrite q b sub value) s = .next (refusedWith s q i sub.toNat abRange))) ∧
    (∀ entry : Bytes, accepts s q j 2 entry →
      let k := selected s q j 1
      let e := BitVec.ofNat 256 (leNat entry)
      let old := tabGet 0 (portAt s p.toNat).filters k
      (entry.length = 32 → filterOk s e = true → 8 ≤ k → filterReservedBy s p.toNat k = false →
        (bit (filterWord old 0) 31 = false ∨ bits (filterWord old 0) 30 29 = 2) →
        (bit (filterWord e 0) 31 = false ∨ bits (filterWord e 0) 30 29 = 2) →
        exec (.filterEntryWrite q p entry) s = .next (accepted s q j 2 entry (setFilter s p.toNat k e))) ∧
      (entry.length = 32 → filterOk s e = false → exec (.filterEntryWrite q p entry) s = .next (refusedWith s q j 2 abRange)) ∧
      (entry.length = 32 → filterOk s e = true → filterReservedBy s p.toNat k = true ∨
        (bit (filterWord old 0) 31 = true ∧ bits (filterWord old 0) 30 29 ≠ 2) ∨
        (bit (filterWord e 0) 31 = true ∧ bits (filterWord e 0) 30 29 ≠ 2) →
        exec (.filterEntryWrite q p entry) s = .next (refusedWith s q j 2 abState)) ∧
      (entry.length = 32 → filterOk s e = true → k < 8 → exec (.filterEntryWrite q p entry) s = .next (refusedWith s q j 2 abState)) ∧
      (entry.length < 32 → exec (.filterEntryWrite q p entry) s = .next (refusedWith s q j 2 abShort)) ∧
      (32 < entry.length → exec (.filterEntryWrite q p entry) s = .next (refusedWith s q j 2 abLong)))

/-! ### State tables (07) -/

/-- A state access (R230, R231, R233): the row and the slot are read as they stood, the message's updates are written together, and no
other row and no slot changes; a corrected error counts, an uncorrectable row reads as not valid and counts, and an uncorrectable
edge takes the context into Recovering. While the feature stage domain is not On the messages wait. -/
def Obligations.StateAccessesAreAtomic : Prop :=
  (∀ (s : State) (c : BitVec 6) (found : RowFault), domIsOn s 9 = false ∨ nextAccess s c.toNat = none →
    exec (.stateAccess c found) s = .next s) ∧
  (∀ (s : State) (c : BitVec 6) (m i : Nat) (rest : List Group) (x : Msg) (im : Image),
    let n := c.toNat
    domIsOn s 9 = true → nextAccess s n = some (m, rest) → msgAt s m = some x → (ctxAt s x.ctx).image = some im → x.instr = some i →
    let u := setAccess s n rest
    (∃ t y, exec (.stateAccess c .none) s = .next t ∧ msgAt t m = some y ∧ y.accessed = true ∧ y.row = rowAt s i ∧
      y.slot = slotAt s i ∧
      rowAt t i = (updateRow im { (assignSeq u x i).1 with row := rowAt s i, slot := slotAt s i, accessed := true } (rowAt s i)).1 ∧
      (∀ j, j ≠ i → rowAt t j = rowAt s j) ∧ accessGroups t n = rest ∧ t.work.slots = s.work.slots ∧
      t.work.symbols = s.work.symbols ∧ t.quartz = s.quartz ∧ t.ctr = s.ctr ∧ t.power = s.power) ∧
    exec (.stateAccess c .corrected) s = .next (logBadFrame (countUpdate (stateAccess (bump u 0x2400 3) m) m) x.frame) ∧
    (∃ t y, exec (.stateAccess c .row) s = .next t ∧ msgAt t m = some y ∧ y.row = [] ∧
      reg t (cb n 3) 8 0 = (reg s (cb n 3) 8 0 + 1) % 2 ^ 32 ∧
      (∀ j, j ≠ i → rowAt t j = rowAt s j) ∧ accessGroups t n = rest ∧ t.work.slots = s.work.slots) ∧
    exec (.stateAccess c .edge) s =
      .next (enterRecovering (logBadFrame (countUpdate (stateAccess u m) m) x.frame) n 0x0209))

/-- State clear and the sweep of old slots (R232, R236): one row or all of the context's become not valid, any other value is refused,
and OLD is set on each published slot whose age has reached 2^31 ns, and on no other: a stamp that lies before a backward step of
the base, 2^30 ns or less ahead, has age 0. -/
def Obligations.StateClearsAndOldSweeps : Prop :=
  (∀ (s : State) (q : Requester) (c : BitVec 6) (v : BitVec 16),
    let n := c.toNat
    let i := cb n 3
    accepts s q i 5 (toLe 2 v.toNat) →
    (v.toNat < 16384 → inInstruments s n v.toNat = true → exec (.stateClear q c v) s =
      .next (accepted s q i 5 (toLe 2 v.toNat) (setRow s v.toNat []))) ∧
    (v = 0xFFFF → ∃ t, exec (.stateClear q c v) s = .next t ∧ (∀ j, j ∈ instruments s n → rowAt t j = []) ∧
      (∀ j, j ∉ instruments s n → rowAt t j = rowAt s j) ∧ t.work.slots = s.work.slots ∧ t.work.msgs = s.work.msgs) ∧
    (v ≠ 0xFFFF → (16384 ≤ v.toNat ∨ inInstruments s n v.toNat = false) →
      exec (.stateClear q c v) s = .next (refusedWith s q i 5 abRange))) ∧
  (∀ (s : State) (i : Nat), ∃ t, exec .oldSweep s = .next t ∧
    slotAt t i = (if (slotAt s i).published = true ∧ 2 ^ 31 ≤ ((baseAt s (admBase s)).n - (slotAt s i).stamp).toNat ∧
        ((baseAt s (admBase s)).n - (slotAt s i).stamp).toNat < 0xC0000000
      then { slotAt s i with old := true } else slotAt s i) ∧
    t.work.rows = s.work.rows ∧ t.work.msgs = s.work.msgs ∧ t.objs = s.objs ∧ t.quartz = s.quartz)

/-! ### Opal (09) -/

/-- The event of a message at Opal (R288, R294): the program's own step is booked as admission reckoned it, a lagged one where the
tests pass, and it is skipped where it is refused, without a usable group, or in a context that is not Closed or Open. An event
is handed over once, after its state access. -/
def Obligations.OpalEventsBecomeStepsOrSkips : Prop :=
  (∀ (s : State) (m : Nat), msgAt s m = none → exec (.opalEventIssue m) s = .next s) ∧
  (∀ (s : State) (m : Nat) (x : Msg), msgAt s m = some x → x.seq = none ∨ x.accessed = false ∨ x.issued = true →
    exec (.opalEventIssue m) s = .next s) ∧
  (∀ (s : State) (m i : Nat) (x : Msg) (q : BitVec 32), msgAt s m = some x → x.seq = some q → x.accessed = true →
    x.issued = false → x.instr = some i →
    let u := setMsg s m { x with issued := true }
    (x.kind = .s → x.fate = .admitted → replicaSet s x.ctx ≠ [] → openMsg x = true →
      exec (.opalEventIssue m) s = .next (bookStep u { newStep x q with
        own := some m, lane := x.lane, place := x.place, ver := x.ver, start := x.stepStart, deadline := x.deadline })) ∧
    (x.kind = .s → x.fate = .admitted → replicaSet s x.ctx ≠ [] → openMsg x = false →
      exec (.opalEventIssue m) s = .next (skipEvent u i q)) ∧
    (x.kind = .s → x.fate = .admitted → replicaSet s x.ctx = [] → openMsg x = true → exec (.opalEventIssue m) s =
      .next (settleForks (settleEns (deliver (bump32 (skipEvent u i q) (cb x.ctx 5) 0x12) m) x.ctx) x.ctx i)) ∧
    (x.kind = .s → x.fate = .admitted → replicaSet s x.ctx = [] → openMsg x = false →
      exec (.opalEventIssue m) s = .next (settleForks (skipEvent u i q) x.ctx i)) ∧
    (x.kind ≠ .s ∨ x.fate ≠ .admitted → (isLoaded s x.ctx = false ∨ tagCurrent s x.tag = false) →
      exec (.opalEventIssue m) s = .next (skipEvent u i q)) ∧
    (x.kind ≠ .s ∨ x.fate ≠ .admitted → isLoaded s x.ctx = true → tagCurrent s x.tag = true →
      (laggedTests u x (x.tdp.getD 0) = none → exec (.opalEventIssue m) s = .next (skipEvent u i q)) ∧
      (∀ lane start pub due, laggedTests u x (x.tdp.getD 0) = some (lane, start, pub, due) →
        exec (.opalEventIssue m) s = .next (bookStep (bookLagged u i lane pub)
          { newStep x q with lane := lane, place := placement u i, ver := admittedVer u i, start := start, deadline := due }))))

/-- A booked step starts (R16, R284, R302, R318, R322): one of a stale tag is dropped and counted, one whose placement has changed
version, or that has no lane or weights, is discarded, one that may not begin waits, and one that may runs on its lane with the
weights that are then current, its intent written to the cache's header. An uncorrectable header line of a local cache fails it,
and uncorrectable rows are left out. -/
def Obligations.OpalStepsStartOnTheirLanes : Prop :=
  (∀ (s : State) (k : Nat) (f : LineFaults), stepAt s k = none → exec (.opalStepStart k f.bad f.corrected) s = .next s) ∧
  (∀ (s : State) (k : Nat) (f : LineFaults) (x : OStep), stepAt s k = some x →
    (x.running = true → exec (.opalStepStart k f.bad f.corrected) s = .next s) ∧
    (x.running = false → tagCurrent s x.tag = false → exec (.opalStepStart k f.bad f.corrected) s =
      .next (staleDrop (skipEvent (setStep s k none) x.instr x.seq) x.tag)) ∧
    (x.running = false → tagCurrent s x.tag = true → mayBegin s x = false → exec (.opalStepStart k f.bad f.corrected) s = .next s) ∧
    (x.running = false → tagCurrent s x.tag = true → mayBegin s x = true → x.place ≠ 0 → (dirAt s x.instr).ver ≠ x.ver →
      exec (.opalStepStart k f.bad f.corrected) s = .next (discardStep s k (cb x.ctx 6) 0x0E)) ∧
    (x.running = false → tagCurrent s x.tag = true → mayBegin s x = true → x.place = 0 ∨ (dirAt s x.instr).ver = x.ver →
      (laneOf s x = none ∨ (ctxAt s x.ctx).weights = none →
        exec (.opalStepStart k f.bad f.corrected) s = .next (discardStep s k (cb x.ctx 5) 0x12)) ∧
      (∀ lane m, laneOf s x = some lane → (ctxAt s x.ctx).weights = some m →
        ((∃ y, y ∈ allSteps s ∧ y.2.running = true ∧ y.2.lane = lane) → exec (.opalStepStart k f.bad f.corrected) s = .next s) ∧
        ((∀ y, y ∈ allSteps s → y.2.running = true → y.2.lane ≠ lane) →
          exec (.opalStepStart k f.bad f.corrected) s = .next (beginStep s k x m lane f)))) ∧
    (∀ i sub, stepAt (discardStep s k i sub) k = none ∧
      skipsOf (discardStep s k i sub) x.instr = skipsOf s x.instr ++ [x.seq])) ∧
  (∀ (s : State) (k : Nat) (x : OStep) (m : OpalImage) (lane : Nat) (f : LineFaults),
    let rows := stepRows m (runningStep s x m lane (headerRead s x))
    let r := readLocal s x.instr m rows f
    (x.place ≠ 1 ∨ m.nlayer = 0 → beginStep s k x m lane f = startStep s k x m lane []) ∧
    (x.place = 1 → m.nlayer ≠ 0 → (∃ n, n ∈ r.1 ∧ n < 4) → beginStep s k x m lane f = headerFault r.2 k) ∧
    (x.place = 1 → m.nlayer ≠ 0 → (∀ n, n ∈ r.1 → 4 ≤ n) → beginStep s k x m lane f =
      startStep r.2 k x m lane (rows.filter fun y => r.1.any fun n => rowTouches m n y))) ∧
  (∀ (s : State) (k : Nat) (x : OStep) (m : OpalImage) (lane : Nat) (lost : List (Nat × Nat)),
    ∃ y, stepAt (startStep s k x m lane lost) k = some y ∧ y.running = true ∧ y.lane = lane ∧ y.weights = some m ∧ y.seq = x.seq ∧
      y.instr = x.instr ∧ y.tag = x.tag ∧
      cacheAt (startStep s k x m lane lost) x.instr =
        { (if hasRing m then intentCache m (headerRead s x) x.seq else { headerRead s x with next := x.seq }) with tag := x.tag } ∧
      (startStep s k x m lane lost).work = s.work)

/-- Publication and sequence updates (R292, R293, R294, R304, R322, R327): a step that has completed writes the slot whole with its
number and the stamp of the write, and a skip only advances the number, keeping values, stamp and OLD; no other slot changes. Both
wait for the earlier events of the instrument and for the domain of the slot table, a step also for its reads and its region; a
step whose placement has changed version is discarded. -/
def Obligations.SlotsArePublishedInOrder : Prop :=
  (∀ (s : State) (k : Nat) (x : OStep), stepAt s k = some x →
    (x.running = false ∨ readsOpen s k = true ∨ isNext s x.instr x.seq = false ∨ domIsOn s 9 = false →
      exec (.slotPublish k) s = .next s) ∧
    (x.running = true → readsOpen s k = false → isNext s x.instr x.seq = true → domIsOn s 9 = true →
      (tagCurrent s x.tag = false →
        exec (.slotPublish k) s = .next (staleDrop (skipEvent (setStep s k none) x.instr x.seq) x.tag)) ∧
      (tagCurrent s x.tag = true → x.place ≠ 0 → (dirAt s x.instr).ver ≠ x.ver →
        exec (.slotPublish k) s = .next (discardStep s k (cb x.ctx 6) 0x0E)) ∧
      (tagCurrent s x.tag = true → x.place = 0 ∨ (dirAt s x.instr).ver = x.ver → regionServes s x.instr x.place = false →
        exec (.slotPublish k) s = .next s) ∧
      (∀ m, tagCurrent s x.tag = true → x.place = 0 ∨ (dirAt s x.instr).ver = x.ver → regionServes s x.instr x.place = true →
        x.weights = some m → ∃ t, exec (.slotPublish k) s = .next t ∧
        slotAt t x.instr = { vals := x.vals, seq := x.seq, stamp := (baseAt s (admBase s)).n, old := false, published := true } ∧
        (∀ j, j ≠ x.instr → slotAt t j = slotAt s j) ∧ stepAt t k = none ∧ (∀ j, j ≠ k → stepAt t j = stepAt s j) ∧
        reg t (cb x.ctx 5) 3 0 = (reg s (cb x.ctx 5) 3 0 + 1) % 2 ^ 64 ∧
        (hasRing m = true → cacheAt t x.instr = commitCache m (cacheAt s x.instr) x) ∧
        t.work.rows = s.work.rows ∧ t.work.symbols = s.work.symbols ∧ t.quartz = s.quartz ∧ t.ctr = s.ctr))) ∧
  (∀ (s : State) (i : BitVec 14),
    (domIsOn s 9 = false ∨ ownerOf s i.toNat = none ∨ (skipsOf s i.toNat).find? (fun q => isNext s i.toNat q) = none →
      exec (.sequenceUpdate i) s = .next s) ∧
    (∀ q c, domIsOn s 9 = true → (skipsOf s i.toNat).find? (fun q => isNext s i.toNat q) = some q → ownerOf s i.toNat = some c →
      ∃ t, exec (.sequenceUpdate i) s = .next t ∧ slotAt t i.toNat = { slotAt s i.toNat with seq := q } ∧
        (∀ j, j ≠ i.toNat → slotAt t j = slotAt s j) ∧ skipsOf t i.toNat = (skipsOf s i.toNat).erase q ∧
        reg t (cb c 5) 4 0 = (reg s (cb c 5) 4 0 + 1) % 2 ^ 64 ∧
        t.store.steps = s.store.steps ∧ t.work.rows = s.work.rows ∧ t.quartz = s.quartz))

/-- Weight loads, switches and faults (R298, R301, R302, R303): a verified fragment becomes the shadow copy, a switch makes it current,
a discard drops it, each refused where its state forbids it; a corrected weight error counts, an uncorrectable one discards its
step or abandons its rollout and takes the group out of the replica set until it is rewritten, a residue mismatch discards the
work too, and a retired lane is not usable and runs nothing. -/
def Obligations.WeightsSwitchAndLanesRetire : Prop :=
  ∀ (s : State) (q : Requester) (c : BitVec 6),
    let n := c.toNat
    let i := cb n 5
    let x := ctxAt s n
    (∀ bytes body m cur im, accepts s q i 0x0A bytes → stagingFree s = true → mayChange s n = true → x.shadow = none →
      fragmentBody s 3 n bytes = .ok body → readOpal body = some (some m) → x.weights = some cur → x.image = some im →
      m.header = cur.header → opalTensorOk m im.feat = true → weightsFit s n m = true →
      exec (.weightLoad q c bytes) s = .next (accepted s q i 0x0A bytes (setCtx s n { x with shadow := some m }))) ∧
    (∀ bytes a, accepts s q i 0x0A bytes → stagingFree s = true → mayChange s n = true → x.shadow = none →
      fragmentBody s 3 n bytes = .error a → exec (.weightLoad q c bytes) s = .next (refusedWith s q i 0x0A a)) ∧
    (∀ m, accepts s q i 0x0B [1] → mayChange s n = true → x.shadow = some m → exec (.weightSwitch q c) s =
      .next (accepted s q i 0x0B [1] (setCtx s n { x with weights := some m, shadow := none, switches := x.switches + 1 }))) ∧
    (∀ m, accepts s q i 0x0B [2] → mayChange s n = true → x.shadow = some m → exec (.weightDiscard q c) s =
      .next (accepted s q i 0x0B [2] (setCtx s n { x with shadow := none }))) ∧
    (accepts s q i 0x0B [1] → x.shadow = none → exec (.weightSwitch q c) s = .next (refusedWith s q i 0x0B abState)) ∧
    (∀ bytes, accepts s q i 0x0A bytes → stagingFree s = true → mayChange s n = false ∨ x.shadow ≠ none →
      exec (.weightLoad q c bytes) s = .next (refusedWith s q i 0x0A abState)) ∧
    (∀ bytes body m cur im, accepts s q i 0x0A bytes → stagingFree s = true → mayChange s n = true → x.shadow = none →
      fragmentBody s 3 n bytes = .ok body → readOpal body = some (some m) → x.weights = some cur → x.image = some im →
      (m.header ≠ cur.header ∨ opalTensorOk m im.feat = false →
        exec (.weightLoad q c bytes) s = .next (refusedWith s q i 0x0A abRange)) ∧
      (m.header = cur.header → opalTensorOk m im.feat = true → weightsFit s n m = false →
        exec (.weightLoad q c bytes) s = .next (refusedWith s q i 0x0A abMemory))) ∧
    (accepts s q i 0x0B [1] → mayChange s n = false → exec (.weightSwitch q c) s = .next (refusedWith s q i 0x0B abState)) ∧
    (accepts s q i 0x0B [2] → x.shadow = none ∨ mayChange s n = false →
      exec (.weightDiscard q c) s = .next (refusedWith s q i 0x0B abState)) ∧
    (∀ w kind, workLane s w = none → exec (.weightError w kind) s = .next s) ∧
    (∀ w, workLane s w ≠ none → exec (.weightError w .corrected) s = .next (bump s 0x2600 5)) ∧
    (∀ (d : BitVec 6) (k : BitVec 2) lane, workLane s (.rollout d k) = some (d.toNat, lane) →
      (∃ t, exec (.weightError (.rollout d k) .uncorrectable) s = .next t ∧ (rolloutAt t d.toNat k.toNat).state = .abandoned ∧
        lane / 4 ∈ (ctxAt t d.toNat).broken) ∧
      (∃ t, exec (.weightError (.rollout d k) .residue) s = .next t ∧ (rolloutAt t d.toNat k.toNat).state = .abandoned)) ∧
    (∀ k y, stepAt s k = some y → y.running = true → ∃ t, exec (.weightError (.step k) .uncorrectable) s = .next t ∧
      stepAt t k = none ∧ y.lane / 4 ∈ (ctxAt t y.ctx).broken ∧ t.work.slots = s.work.slots) ∧
    (∀ k y, stepAt s k = some y → y.running = true → ∃ t, exec (.weightError (.step k) .residue) s = .next t ∧
      stepAt t k = none ∧ t.work.slots = s.work.slots) ∧
    (∀ g : BitVec 2, exec (.weightRewriteDone c g) s =
      .next (setCtx s n { x with broken := x.broken.filter (· != g.toNat) })) ∧
    (∀ l : BitVec 4, bit (val s 0x2600 1) l.toNat = false → exec (.laneRetire l) s = .next s) ∧
    (∀ l : BitVec 4, bit (val s 0x2600 1) l.toNat = true → ∃ t, exec (.laneRetire l) s = .next t ∧
      bit (val t 0x2600 1) l.toNat = false ∧ bit (val t 0x2600 7) l.toNat = true ∧
      (∀ j, j ≠ l.toNat → bit (val t 0x2600 1) j = bit (val s 0x2600 1) j) ∧
      (∀ k y, stepAt t k = some y → y.running = true → y.lane ≠ l.toNat))

/-- Rollouts (R295, R296, R297, R298): a request books its fork on the instrument and takes its scratch slot; each step waits until
the fork is taken, reads its rows first where the cache is remote, and appends one result without writing the real cache; an
uncorrectable header abandons it, the last step ends it Done, one that the ring has overtaken ends so, and the read of an ended
rollout's status frees its slot. -/
def Obligations.RolloutsRunBesideTheCache : Prop :=
  (∀ (s : State) (q : Requester) (c : BitVec 6) (slot : BitVec 2),
    let n := c.toNat
    let k := slot.toNat
    let o := rolloutAt s n k
    let i := cb n 5
    (∀ bytes m, accepts s q i 0x0C bytes → bytes.length = 16 → modelOf s n = some m → (byteAt bytes 2).toNat = k → k < m.nscr →
      leAt bytes 0 2 < 16384 → inInstruments s n (leAt bytes 0 2) = true → byteAt bytes 3 = 0 → leAt bytes 4 2 ≤ 256 →
      (leAt bytes 6 2 = 0xFFFF ∨ (counterRange s n).1 ≤ leAt bytes 6 2 ∧ leAt bytes 6 2 < (counterRange s n).1 + (counterRange s n).2) →
      zeroAt bytes 8 8 = true →
      let j := leAt bytes 0 2
      let l := s.work.ledger
      let v := setLedger s { l with instrs := tabSet 0 l.instrs j (max (admNow s) (tabGet 0 l.instrs j)) }
      let u := settleForks (setRollout v n k { Rollout.reset with
        state := .running, instr := j, steps := leAt bytes 4 2, kctr := leAt bytes 6 2, waits := some (forkBehind s j) }) n j
      (mayChange s n = true → o.state = .idle → rolloutLanes s n ≠ [] → exec (.rolloutRequest q c bytes) s =
        .next (accepted s q i 0x0C bytes (if leAt bytes 4 2 = 0 then endRollout u n k .done else u))) ∧
      (mayChange s n = false ∨ o.state ≠ .idle ∨ rolloutLanes s n = [] →
        exec (.rolloutRequest q c bytes) s = .next (refusedWith s q i 0x0C abState))) ∧
    (∀ bytes, accepts s q i 0x0C bytes → bytes.length < 16 → exec (.rolloutRequest q c bytes) s = .next (refusedWith s q i 0x0C abShort)) ∧
    (∀ bytes, accepts s q i 0x0C bytes → 16 < bytes.length → exec (.rolloutRequest q c bytes) s = .next (refusedWith s q i 0x0C abLong)) ∧
    (∀ m im (f : LineFaults), (ctxAt s n).weights = some m → (ctxAt s n).image = some im →
      let pl := (dirAt s o.instr).pl
      let runs := o.state = .running ∧ o.waits = none ∧ o.done < o.steps ∧ rolloutLanes s n ≠ [] ∧
        (∀ d, d ∈ storeDomains s pl → domIsOn s d = true) ∧ regionServes s o.instr pl = true
      let rows := rolloutRows m o (o.done + 1)
      let r := readLocal (bookRollout s n k m pl) o.instr m rows f
      let lost := rows.filter fun y => r.1.any fun z => rowTouches m z y
      (¬runs → exec (.rolloutStep c ⟨slot, f⟩) s = .next s) ∧
      (runs → pl = 2 → m.nlayer ≠ 0 → o.reading = false →
        exec (.rolloutStep c ⟨slot, f⟩) s = .next (readRollouts (bookRollout s n k m pl) n k m)) ∧
      (runs → pl = 2 → m.nlayer ≠ 0 → o.reading = true → rolloutReads s n k = true → exec (.rolloutStep c ⟨slot, f⟩) s = .next s) ∧
      (runs → pl = 2 → m.nlayer ≠ 0 → o.reading = true → rolloutReads s n k = false →
        exec (.rolloutStep c ⟨slot, f⟩) s = .next (computeRollout s n k m im o.bad)) ∧
      (runs → (pl ≠ 1 ∧ pl ≠ 2) ∨ m.nlayer = 0 →
        exec (.rolloutStep c ⟨slot, f⟩) s = .next (computeRollout (bookRollout s n k m pl) n k m im [])) ∧
      (runs → pl = 1 → m.nlayer ≠ 0 → (∃ z, z ∈ r.1 ∧ z < 4) → exec (.rolloutStep c ⟨slot, f⟩) s = .next (rolloutHeaderFault r.2 n k)) ∧
      (runs → pl = 1 → m.nlayer ≠ 0 → (∀ z, z ∈ r.1 → 4 ≤ z) → exec (.rolloutStep c ⟨slot, f⟩) s =
        .next (computeRollout (bumpBy 32 r.2 (cb n 5) 8 lost.length) n k m im lost))) ∧
    (readable s q i 0x0E → selected s q i 0x0D = k →
      (o.state ≠ .idle → o.state ≠ .running → exec (.rolloutStatusRead q c) s =
        .next (respond (setRollout s n k Rollout.reset) q i 0x0E 0 (rolloutStatus o))) ∧
      (o.state = .idle ∨ o.state = .running → exec (.rolloutStatusRead q c) s = .next (respond s q i 0x0E 0 (rolloutStatus o))))) ∧
  (∀ (s : State) (n k : Nat) (m : OpalImage) (im : Image) (lost : List (Nat × Nat)),
    let o := rolloutAt s n k
    let t := computeRollout s n k m im lost
    let passed := m.fres ≤ ((cacheAt s o.instr).next - (o.sf + 1)).toNat ∧ m.nlayer ≠ 0
    t.store = s.store ∧ t.work = s.work ∧
    (passed → (rolloutAt t n k).state = .overtaken ∧ (rolloutAt t n k).results = o.results) ∧
    (¬passed → (rolloutAt t n k).done = o.done + 1 ∧ (∃ y, (rolloutAt t n k).results = o.results ++ [y]) ∧
      (rolloutAt t n k).state = (if o.done + 1 = o.steps then .done else o.state)))

/-! ### Mantel (10) -/

/-- Migrations (R323, R324, R325): one is accepted where its destination has room, and its header and rows are carried passed; once its
requests are answered its lock is booked where few enough rows remain, else it copies again, at most eight times; the lock begins
when the source's steps have published and abandons the instrument's rollouts, the switch writes the destination with the next
version, and the source is free once nothing is outstanding on it. What a retired bank does to a migration it moves, and that rows
the source could not give do not reach the destination, is the model's choice (notes/assumptions/48). -/
def Obligations.MigrationsMoveCaches : Prop :=
  (∀ (s : State) (q : Requester) (c : BitVec 6) (bytes : Bytes) (r : MigrateReq),
    let n := c.toNat
    let i := cb n 6
    accepts s q i 8 bytes → bytes.length = 8 → readMigrate bytes = some r → migrateInRange s n r = true → mayChange s n = true →
    (dirAt s r.instr).mig = false → migrations s < 16 →
    (∀ a, migrateRoom s n r = some a →
      let g : Migration :=
        { ctx := n, dest := r.dest, region := BitVec.ofNat 6 r.region, addr := BitVec.ofNat 34 a,
          sc := (cacheAt s r.instr).next, copies := 1, phase := .copying, bad := [], badHeader := false }
      exec (.migrate q c bytes) s = .next (accepted s q i 8 bytes
        (copyPhase (setMig (setDir s r.instr { dirAt s r.instr with mig := true }) r.instr (some g)) r.instr g))) ∧
    (migrateRoom s n r = none → exec (.migrate q c bytes) s = .next (refusedWith s q i 8 abMemory))) ∧
  (∀ (s : State) (q : Requester) (c : BitVec 6) (bytes : Bytes) (r : MigrateReq),
    accepts s q (cb c.toNat 6) 8 bytes → bytes.length = 8 → readMigrate bytes = some r →
    (migrateInRange s c.toNat r = false → exec (.migrate q c bytes) s = .next (refusedWith s q (cb c.toNat 6) 8 abRange)) ∧
    (migrateInRange s c.toNat r = true → (mayChange s c.toNat = false ∨ (dirAt s r.instr).mig = true ∨ 16 ≤ migrations s) →
      exec (.migrate q c bytes) s = .next (refusedWith s q (cb c.toNat 6) 8 abState))) ∧
  (∀ (s : State) (b : BitVec 14) (f : LineFaults), migAt s b.toNat = none →
    exec (.migrateCopyDone ⟨b, f⟩) s = .next s ∧ exec (.migrateLock b) s = .next s ∧ exec (.migrateSwitch ⟨b, f⟩) s = .next s) ∧
  (∀ (s : State) (i : Nat) (g : Migration) (ps : List Nat) (f : LineFaults),
    let r := noteCarried s i g ps f
    r.1 = { g with bad := r.1.bad, badHeader := r.1.badHeader } ∧ r.2.store.caches = s.store.caches ∧
    ((dirAt s i).pl ≠ 1 → r = (g, s))) ∧
  (∀ (s : State) (b : BitVec 14) (g : Migration) (f : LineFaults),
    let i := b.toNat
    migAt s i = some g →
    (g.phase ≠ .copying ∨ carrying s i = true → exec (.migrateCopyDone ⟨b, f⟩) s = .next s) ∧
    (∀ m, g.phase = .copying → carrying s i = false → modelOf s g.ctx = some m →
      let k := min ((cacheAt s i).next - g.sc).toNat (ringLen m)
      let r := noteCarried s i g (ringPositions m) f
      (migAt r.2 i = none → exec (.migrateCopyDone ⟨b, f⟩) s = .next r.2) ∧
      (migAt r.2 i ≠ none →
        (k ≤ 16 → ∃ t, exec (.migrateCopyDone ⟨b, f⟩) s = .next t ∧ dirAt t i = { dirAt r.2 i with lock := true } ∧
          migAt t i = some { r.1 with phase := .locking } ∧ t.store.caches = s.store.caches ∧
          tabGet 0 t.work.ledger.instrs i =
            max (admNow s) (tabGet 0 s.work.ledger.instrs i) + lockTime r.2 m g.ctx (dirAt r.2 i).pl g.dest k) ∧
        (16 < k → 8 ≤ g.copies → ∃ t, exec (.migrateCopyDone ⟨b, f⟩) s = .next t ∧ migAt t i = none ∧
          dirAt t i = { dirAt r.2 i with lock := false, mig := false } ∧
          reg t (cb g.ctx 6) 0x0C 0 = (reg r.2 (cb g.ctx 6) 0x0C 0 + 1) % 2 ^ 32) ∧
        (16 < k → g.copies < 8 →
          let h := { r.1 with sc := (cacheAt s i).next, copies := g.copies + 1, bad := [], badHeader := false }
          exec (.migrateCopyDone ⟨b, f⟩) s = .next (copyPhase (setMig r.2 i (some h)) i h)))) ∧
    (g.phase = .locking → sourceBusy s i = false → ∃ t h, exec (.migrateLock b) s = .next t ∧
      migAt t i = some h ∧ h = { g with phase := .locked, bad := h.bad, badHeader := h.badHeader } ∧
      t.store.dir = s.store.dir ∧ t.store.caches = s.store.caches ∧
      (∀ k, (rolloutAt t g.ctx k).instr = i → (rolloutAt t g.ctx k).state ≠ .running)) ∧
    (g.phase ≠ .locking ∨ sourceBusy s i = true → exec (.migrateLock b) s = .next s) ∧
    (g.phase ≠ .locked ∨ carrying s i = true → exec (.migrateSwitch ⟨b, f⟩) s = .next s) ∧
    (g.phase = .locked → carrying s i = false →
      let ps := match modelOf s g.ctx with | none => [] | some m => eventPositions m g.sc (cacheAt s i).next
      let r := noteCarried s i g ps f
      (migAt r.2 i = none → exec (.migrateSwitch ⟨b, f⟩) s = .next r.2) ∧
      (migAt r.2 i ≠ none → ∃ t, exec (.migrateSwitch ⟨b, f⟩) s = .next t ∧ migAt t i = none ∧
        dirAt t i = { dirAt r.2 i with pl := g.dest, addr := g.addr, region := if g.dest = 2 then g.region else 0,
                                       ver := (dirAt r.2 i).ver + 1, lock := false, mig := false } ∧
        ((dirAt r.2 i).pl = 1 ∨ (dirAt r.2 i).pl = 2 →
          tabGet none t.store.releasing i = some ((dirAt r.2 i).pl, (dirAt r.2 i).addr) ∧
          cacheAt t i = arrivedCache r.2 i r.1 ∧ (r.1.bad = [] → r.1.badHeader = false → cacheAt t i = cacheAt s i)) ∧
        reg t (cb g.ctx 6) 0x0B 0 = (reg r.2 (cb g.ctx 6) 0x0B 0 + 1) % 2 ^ 32 ∧
        (∀ j, j ≠ i → dirAt t j = dirAt r.2 j ∧ migAt t j = migAt r.2 j)))) ∧
  (∀ (s : State) (b : BitVec 14),
    (sourceOpen s b.toNat = false → exec (.migrateRelease b) s =
      .next { s with store := { s.store with releasing := tabSet none s.store.releasing b.toNat none } }) ∧
    (sourceOpen s b.toNat = true → exec (.migrateRelease b) s = .next s))

/-- Regions, quotas and failed remote writes (R310, R311, R312, R317, R327): a descriptor is written with the STATE that its V gives it,
and refused out of range or while its region is in use; a fenced region is lifted once no older request is outstanding, with the
header writes that waited; a quota is bounded by what is used and by the capacity; and a failed write counts, is logged, and
clears its position's VALID bit or resets the cache. -/
def Obligations.RegionsQuotasAndFailedWrites : Prop :=
  ∀ (s : State) (q : Requester),
    (∀ bytes ps, accepts s q 0x2700 8 bytes →
      let r := selected s q 0x2700 7
      let v := BitVec.ofNat 256 (leNat bytes)
      let old := regionAt s r
      (bytes.length = 32 → regionReserved v = true → (regionV v = false ∨ regionOk s r v ps = true) →
        (regionV old = false ∨ ctxState s (regionCtx old) = .free) →
        ∃ t, exec (.regionDescriptorWrite q bytes ps) s = .next t ∧
          t = accepted s q 0x2700 8 bytes (setRegion s r (regionStored v)) ∧
          regionState (regionAt t r) = (if regionV v = true then 0 else 2)) ∧
      (bytes.length = 32 → regionReserved v = true → (regionV v = false ∨ regionOk s r v ps = true) →
        regionV old = true → ctxState s (regionCtx old) ≠ .free →
        exec (.regionDescriptorWrite q bytes ps) s = .next (refusedWith s q 0x2700 8 abState)) ∧
      (bytes.length = 32 → regionReserved v = false →
        exec (.regionDescriptorWrite q bytes ps) s = .next (refusedWith s q 0x2700 8 abRange)) ∧
      (32 < bytes.length → exec (.regionDescriptorWrite q bytes ps) s = .next (refusedWith s q 0x2700 8 abLong)) ∧
      (bytes.length = 32 → regionReserved v = true → regionV v = true → regionOk s r v ps = false →
        exec (.regionDescriptorWrite q bytes ps) s = .next (refusedWith s q 0x2700 8 abRange)) ∧
      (bytes.length < 32 → exec (.regionDescriptorWrite q bytes ps) s = .next (refusedWith s q 0x2700 8 abShort))) ∧
    (∀ r : BitVec 6, let v := regionAt s r.toNat
      (regionV v = true → regionState v = 1 → oldRequests s v = false → ∃ t, exec (.regionUnfence r) s = .next t ∧
        t = writeHeldHeaders (setRegion s r.toNat (regionStored v)) r.toNat ∧ regionState (regionAt t r.toNat) = 0 ∧
        regionV (regionAt t r.toNat) = true ∧ t.store.caches = s.store.caches) ∧
      (regionV v = false ∨ regionState v ≠ 1 ∨ oldRequests s v = true → exec (.regionUnfence r) s = .next s)) ∧
    (∀ (c : BitVec 6) (v : BitVec 32), let i := cb c.toNat 6
      let others := ((allCtxs.filter (· ≠ c.toNat)).map fun k => val s (cb k 6) 1).sum
      accepts s q i 1 (toLe 4 v.toNat) →
      (bytesIn s c.toNat 1 ≤ v.toNat → others + v.toNat ≤ localCapacity s → exec (.localQuotaWrite q c v) s =
        .next (accepted s q i 1 (toLe 4 v.toNat) (put s i 1 v.toNat))) ∧
      (v.toNat < bytesIn s c.toNat 1 ∨ localCapacity s < others + v.toNat →
        exec (.localQuotaWrite q c v) s = .next (refusedWith s q i 1 abRange))) ∧
    (∀ (i : BitVec 14) (p : Option Nat) (addr : BitVec 34), hasRemote s i.toNat = false ∨ ownerOf s i.toNat = none →
      exec (.remoteWriteFailure i p addr) s = .next s) ∧
    (∀ (i : BitVec 14) (addr : BitVec 34) (c : Nat), hasRemote s i.toNat = true → ownerOf s i.toNat = some c →
      (∀ p, ∃ t, exec (.remoteWriteFailure i (some p) addr) s = .next t ∧
        (cacheAt t i.toNat).valid = (cacheAt s i.toNat).valid.filter (· != p) ∧
        (cacheAt t i.toNat).next = (cacheAt s i.toNat).next ∧
        t.recov = (sootCtx (bump32 s (cb c 6) 0x0D) c 0x2701 i.toNat addr.toNat).recov ∧
        reg t (cb c 6) 0x0D 0 = (reg s (cb c 6) 0x0D 0 + 1) % 2 ^ 32 ∧ t.store.dir = s.store.dir ∧ t.work = s.work) ∧
      (∃ t, exec (.remoteWriteFailure i none addr) s = .next t ∧
        cacheAt t i.toNat = { Cache.reset with next := (dirAt s i.toNat).nseq, tag := ctxTag s c } ∧
        t.recov = (sootCtx (bump32 s (cb c 6) 0x0D) c 0x2701 (i.toNat + 65536) addr.toNat).recov ∧
        reg t (cb c 6) 0x0D 0 = (reg s (cb c 6) 0x0D 0 + 1) % 2 ^ 32 ∧ t.store.dir = s.store.dir ∧ t.work = s.work))

/-- Spare rows, banks and the relayout of local space (R329, R330, R331): a row takes a spare while its bank has one, the lines that
could not be copied read as uncorrectable, a retired bank leaves the usable ones with capacity and quotas reduced and no
migration left, and the relayout counts and leaves no line uncorrectable. -/
def Obligations.BanksRetireAndSpaceIsLaidAgain : Prop :=
  (∀ (s : State) (b row : Nat) (unread : List (BitVec 6)), b < 6 → row < 8192 →
    let lines := unread.filterMap fun l => (rowLines s b row)[l.toNat]?
    (sparesLeft s b ≠ 0 → ∃ t, exec (.spareRowReplace b ⟨row, unread⟩) s = .next t ∧
      t.store.badLines = (s.store.badLines ++ lines).eraseDups ∧
      t.store.retiredRows = s.store.retiredRows ++ [(b, row)] ∧ t.store.caches = s.store.caches ∧ t.store.dir = s.store.dir ∧
      t.work = s.work ∧ t.ctxs = s.ctxs) ∧
    (sparesLeft s b = 0 → exec (.spareRowReplace b ⟨row, unread⟩) s = .next (retireBank (spoilLines s lines) b))) ∧
  (∀ (s : State) (b : Nat), b < 6 → bit (val s 0x2700 1) b = true → ∃ t, exec (.bankRetire b) s = .next t ∧
    bit (val t 0x2700 1) b = false ∧ (∀ j, j ≠ b → bit (val t 0x2700 1) j = bit (val s 0x2700 1) j) ∧
    val t 0x2700 2 = localCapacity t ∧ t.store.relaying = true ∧ (∀ i, migAt t i = none) ∧
    (∀ c, c < 64 → val t (cb c 6) 1 = val s (cb c 6) 1 * ub t / 6 / 64 * 64) ∧ t.store.caches = s.store.caches) ∧
  (∀ (s : State) (b : Nat), b < 6 → bit (val s 0x2700 1) b = false → exec (.bankRetire b) s = .next s) ∧
  (∀ s : State, s.store.relaying = true → ∃ t, exec .localRelayoutDone s = .next t ∧ t.store.relaying = false ∧
    t.store.relayBanks = [] ∧ t.store.badLines = [] ∧ reg t 0x2700 0x0A 0 = (reg s 0x2700 0x0A 0 + 1) % 2 ^ 32 ∧ t.work = s.work ∧
    t.quartz = s.quartz) ∧
  (∀ s : State, s.store.relaying = false → exec .localRelayoutDone s = .next s)

/-! ### Garnet (08) -/

/-- The rules of an ensemble (R262, R263): in rule-list mode the first rule that decides gives the choice and evaluation stops at the
first OP 0, a NaN score makes every test false, and in argmax mode the largest element's rule decides, that of entry 4 where
one of them is a NaN. -/
def Obligations.FirstDecidingRuleGivesTheChoice : Prop :=
  ∀ (e : Ensemble) (score : List (BitVec 32)),
    (∀ k r, e.argmax = false → e.rules[k]? = some r →
      (∀ j q, j < k → e.rules[j]? = some q → q.op = 1 ∧
        ¬(testHolds score q.testA q.thrA = true ∧ (bit q.testB.toNat 6 = true → testHolds score q.testB q.thrB = true))) →
      (r.op = 2 ∨ r.op = 1 ∧ testHolds score r.testA r.thrA = true ∧
        (bit r.testB.toNat 6 = true → testHolds score r.testB r.thrB = true) → decideScore e score = (r.choice, k)) ∧
      (r.op = 0 → decideScore e score = (0xFFFF, 0x1F))) ∧
    (∀ k r, e.argmax = true → k < e.lw → k < score.length → e.rules[k]? = some r →
      (∀ x, x ∈ score.take e.lw → dec32 x ≠ .nan) →
      (∀ j, j < e.lw → j < score.length → j < k → ltVal (dec32 (score.getD j 0)) (dec32 (score.getD k 0)) = true) →
      (∀ j, j < e.lw → j < score.length → k < j → ltVal (dec32 (score.getD k 0)) (dec32 (score.getD j 0)) = false) →
      decideScore e score = (r.choice, k)) ∧
    (∀ r, e.argmax = true → e.rules[4]? = some r → (∃ x, x ∈ score.take e.lw ∧ dec32 x = .nan) →
      decideScore e score = (r.choice, 4)) ∧
    (∀ (t : Byte) (thr : BitVec 32), dec32 (score.getD (t.toNat % 4) 0) = .nan → testHolds score t thr = false)

/-- Passes, decisions and tree faults (R257, R260, R264, R270): a pass adds its sums to those before it while the trees can be read,
the last pass is followed by the decision, whose record waits in the Chimney's intake; a corrected error in a word of the
ensemble counts and changes nothing else, and any other tree fault makes the message a no-send that counts. -/
def Obligations.GarnetDecidesMessages : Prop :=
  ∀ (s : State) (m : Nat) (x : Msg) (e : Ensemble) (im : Image), msgAt s m = some x → inGarnet x = true →
    (ensAt s x.ctx x.ens).ens = some e → (ctxAt s x.ctx).image = some im →
    let slot := ensAt s x.ctx x.ens
    let w := widthOf x slot
    let r := passSums im.feat.feats x.features e w x.pass
    let sc := scoreOf e x.sums
    (passesAt e w ≤ x.pass ∨ treesReady s slot = false → exec (.garnetPass m) s = .next s) ∧
    (x.pass < passesAt e w → exec (.treeDecision m) s = .next s) ∧
    (x.pass < passesAt e w → treesReady s slot = true → ∃ t y, exec (.garnetPass m) s = .next t ∧ msgAt t m = some y ∧
      y.pass = x.pass + 1 ∧ y.width = w ∧
      (x.pass = 0 → y.sums = r.1) ∧ (x.pass ≠ 0 → y.sums = (addSums x.sums r.1).1) ∧ y.record = none ∧
      (∀ j, j ≠ m → msgAt t j = msgAt s j) ∧ (∀ c k, ensAt t c k = ensAt s c k) ∧ t.chim = s.chim ∧ t.store = s.store ∧
      t.quartz = s.quartz) ∧
    (passesAt e w ≤ x.pass → ∃ t y, exec (.treeDecision m) s = .next t ∧ msgAt t m = some y ∧
      (∃ rec, y.record = some rec ∧ rec.choice = (decideScore e sc.1).1 ∧ rec.rule = (decideScore e sc.1).2 ∧ rec.scores = sc.1) ∧
      tabGet [] t.chim.intake x.ctx = tabGet [] s.chim.intake x.ctx ++ [m] ∧
      reg t (cb x.ctx 4) 8 0 = (reg s (cb x.ctx 4) 8 0 + 1) % 2 ^ 64 ∧
      ((decideScore e sc.1).2 = 0x1F → reg t (cb x.ctx 4) 9 0 = (reg s (cb x.ctx 4) 9 0 + 1) % 2 ^ 64) ∧
      ((decideScore e sc.1).2 ≠ 0x1F → reg t (cb x.ctx 4) 9 0 = reg s (cb x.ctx 4) 9 0) ∧
      (∀ j, j ≠ m → msgAt t j = msgAt s j) ∧ t.chim.replies = s.chim.replies ∧ t.store = s.store ∧ t.quartz = s.quartz) ∧
    (∀ (sl : BitVec 9) (word : BitVec 13) kind,
      (kind ≠ .residue → holdsWord slot sl.toNat word.toNat = false → exec (.treeMemoryError m sl word kind) s = .next s) ∧
      (kind = .corrected → holdsWord slot sl.toNat word.toNat = true →
        exec (.treeMemoryError m sl word kind) s = .next (bump s 0x2500 4)) ∧
      (kind = .residue ∨ kind = .uncorrectable ∧ holdsWord slot sl.toNat word.toNat = true →
        ∃ t y, exec (.treeMemoryError m sl word kind) s = .next t ∧ msgAt t m = some y ∧ y.delivered = true ∧ y.record = none ∧
          reg t 0x2500 5 0 = (reg s 0x2500 5 0 + 1) % 2 ^ 64 ∧
          reg t (cb x.ctx 4) 0x0A 0 = (reg s (cb x.ctx 4) 0x0A 0 + 1) % 2 ^ 64 ∧
          t.chim.replies = s.chim.replies ∧ t.quartz = s.quartz ∧
          (kind = .uncorrectable → (ensAt t x.ctx x.ens).damaged = true)))

/-- Ensembles of a running context (R266, R267, R268, R270, R271): a verified fragment fills an Empty slot, a switch names another
ensemble and leaves admitted messages theirs, a free slot returns its memory, a reloaded record is whole again, and a retired
slice has the ensembles that used it placed again, or Unplaced. -/
def Obligations.EnsemblesLoadSwitchAndMove : Prop :=
  ∀ (s : State) (q : Requester) (c : BitVec 6),
    let n := c.toNat
    let i := cb n 4
    let k := selected s q i 3
    (∀ bytes body im e place, accepts s q i 5 bytes → stagingFree s = true → (ctxAt s n).image = some im → mayChange s n = true →
      (ensAt s n k).state = .empty → fragmentBody s 2 n bytes = .ok body → fragmentEnsemble s im body = some e →
      placeEnsemble s n e = some place → ∃ t, exec (.ensembleLoad q c bytes) s = .next t ∧
        ensAt t n k = placedSlot s .loaded e place ∧
        (∀ j, j ≠ k → ensAt t n j = ensAt s n j) ∧ (ctxAt t n).progs = (ctxAt s n).progs ∧ t.work = s.work ∧ t.chim = s.chim) ∧
    (∀ bytes im, accepts s q i 5 bytes → stagingFree s = true → (ctxAt s n).image = some im →
      (mayChange s n = false ∨ (ensAt s n k).state ≠ .empty) →
      exec (.ensembleLoad q c bytes) s = .next (refusedWith s q i 5 abState)) ∧
    (accepts s q i 6 [1] →
      ((ensAt s n k).state ≠ .active → (ensAt s n k).state ≠ .draining → exec (.ensembleFree q c) s =
        .next (accepted s q i 6 [1] (setEns s n k EnsSlot.reset))) ∧
      ((ensAt s n k).state = .active ∨ (ensAt s n k).state = .draining →
        exec (.ensembleFree q c) s = .next (refusedWith s q i 6 abState))) ∧
    (∀ (v : BitVec 16) (old : Nat), let e := bits v.toNat 7 4
      let j := v.toNat % 16
      let bs := switchBounds s n e j
      accepts s q i 7 (toLe 2 v.toNat) → ((ensAt s n j).state = .loaded ∨ (ensAt s n j).state = .active) → mayChange s n = true →
      progAt s n e = some old →
      (bs = [] ∨ (∃ b, b ∈ bs ∧ b.1 ≤ b.2) → ∃ t, exec (.programSwitch q c v) s = .next t ∧ progAt t n e = some j ∧
        (ensAt t n j).state = .active ∧ (ensAt t n j).ens = (ensAt s n j).ens ∧ (∀ f, f ≠ e → progAt t n f = progAt s n f) ∧
        t.work = s.work ∧ t.chim = s.chim) ∧
      (bs ≠ [] → (∀ b, b ∈ bs → b.2 < b.1) → exec (.programSwitch q c v) s = .next (refusedWith s q i 7 abRange))) ∧
    (∀ v : BitVec 16, accepts s q i 7 (toLe 2 v.toNat) →
      ((ensAt s n (v.toNat % 16)).state ≠ .loaded ∧ (ensAt s n (v.toNat % 16)).state ≠ .active) ∨ mayChange s n = false ∨
        progAt s n (bits v.toNat 7 4) = none →
      exec (.programSwitch q c v) s = .next (refusedWith s q i 7 abState)) ∧
    (∀ slot : BitVec 4, let x := ensAt s n slot.toNat
      (misplaced s x = false → exec (.treeReloadDone c slot) s = .next (setEns s n slot.toNat { x with damaged := false })) ∧
      (misplaced s x = true → exec (.treeReloadDone c slot) s = .next s) ∧
      (x.ens = none ∨ misplaced s x = false → exec (.relayoutDone c slot) s = .next s) ∧
      (∀ e, x.ens = some e → misplaced s x = true → ∃ t, exec (.relayoutDone c slot) s = .next t ∧
        (∀ p, placeEnsemble (setEns s n slot.toNat { x with place := [] }) n e = some p →
          ensAt t n slot.toNat = placedSlot s x.state e p) ∧
        (placeEnsemble (setEns s n slot.toNat { x with place := [] }) n e = none →
          ensAt t n slot.toNat = { x with state := .unplaced, place := [], damaged := false, lost := [] }) ∧
        (∀ j, j ≠ slot.toNat → ensAt t n j = ensAt s n j) ∧ t.work = s.work ∧ t.chim = s.chim)) ∧
    (∀ slice : BitVec 9, sliceRetired s slice.toNat = true → exec (.sliceRetire slice) s = .next s) ∧
    (∀ slice : BitVec 9, sliceRetired s slice.toNat = false → ∃ t, exec (.sliceRetire slice) s = .next t ∧
      sliceRetired t slice.toNat = true ∧ (∀ j, j ≠ slice.toNat → sliceRetired t j = sliceRetired s j) ∧
      (∀ d k, (∃ a, (slice.toNat, a) ∈ (ensAt s d k).place) → (ensAt t d k).damaged = true) ∧
      t.chim.replies = s.chim.replies ∧ t.quartz = s.quartz ∧ t.store = s.store)

/-! ### Hearth (11, 12) -/

/-- The arithmetic units (R348, R349, R350, R353, R358, R359): what a firing emits, lane by lane for MUL, ADD and SUB, on the whole word
for IMUL, LOGIC, SHIFT and IADD, with the function of A for the SFU opcodes; DOT and ACC take their terms into the partial
sums and emit with the last. A unit with a token missing does not fire, and one whose tokens carry two tags takes its
context into Recovering. -/
def Obligations.ArithmeticUnitsEmitTheirResults : Prop :=
  ∀ (s : State) (site : BitVec 12) (u : UnitIn) (a b : Operand),
    let n := site.toNat
    let x := macLanes u.entry 0 a.data
    let y := macLanes u.entry 1 b.data
    let lanes := fun (g : BitVec 32 → BitVec 32 → BitVec 32 × Byte) => (x.zip y).map fun l => g l.1.1 l.2.1
    let flags := fun (l : List (BitVec 32 × Byte)) => l.foldl (fun m r => m ||| r.2) 0
    let words : List (Instr × Nat × Nat × (BitVec 64 → BitVec 64 → BitVec 64)) :=
      [(.imul site, 1, 6, fun p q => p * q), (.logic site, 2, 7, logicOf u.entry.sel), (.shift site, 2, 8, shiftOf u.entry.sel),
       (.iadd site, 2, 9, iaddOf u.entry.sel)]
    let functions : List (Instr × Nat × Fun) :=
      [(.exp site, 1, .exp), (.log site, 2, .log), (.recip site, 3, .recip), (.rsqrt site, 4, .rsqrt), (.sqrt site, 5, .sqrt),
       (.tanh site, 6, .tanh), (.sigmoid site, 7, .sigmoid), (.silu site, 8, .silu), (.gelu site, 9, .gelu)]
    (∀ i op g, (i, op, g) ∈ [(Instr.mul site, 1, fun p q => mul32 (dec32 p) (dec32 q)), (.add site, 2, add32),
        (.sub site, 3, fun p q => add32 p (neg32 q))] →
      (unitReady s n 1 op [0, 1] u [a, b] → firesAs i s u [a, b]
        (emits u [0, 1] (packLanes ((lanes g).map (·.1))) (a.p && b.p) (flags (x ++ y ++ lanes g)))) ∧
      (siteOk n = true → unitIn s n 1 op = some u → operands u [0, 1] = none → exec i s = .next s) ∧
      (siteOk n = true → unitIn s n 1 op = some u → operands u [0, 1] = some [a, b] → tagsDiffer [a, b] = true →
        outputRoom u.cfg u.run u.quota u.site 0 = true → exec i s = .next (enterRecovering s u.ctx 0x0203))) ∧
    (∀ i kind op g, (i, kind, op, g) ∈ words → unitReady s n kind op [0, 1] u [a, b] →
      firesAs i s u [a, b] (emits u [0, 1] (g a.data b.data) (a.p && b.p) 0)) ∧
    (∀ i op f, (i, op, f) ∈ functions → unitReady s n 3 op [0] u [a] →
      let v := asF32 u.entry 0 a.data
      firesAs i s u [a] (emits u [0] (dataOf32 (sfu f v.1).1) a.p (v.2 ||| (sfu f v.1).2))) ∧
    (unitReady s n 1 4 [0, 1] u [a, b] → firesAs (.dot site) s u [a, b] (accumulate u [0, 1]
      ((x.zip y).map fun l => let r := mul32 (dec32 l.1.1) (dec32 l.2.1); (r.1, l.1.2 ||| l.2.2 ||| r.2)) (a.p && b.p))) ∧
    (unitReady s n 1 5 [0] u [a] → firesAs (.acc site) s u [a] (accumulate u [0] x a.p)) ∧
    (∀ terms p, tabGet 0 u.run.taken u.site ≠ u.entry.count → (accumulate u [0] terms p).emit = none) ∧
    (∀ terms p, tabGet 0 u.run.taken u.site = u.entry.count → (accumulate u [0] terms p).emit =
      some (0, dataOf32 (sumResult (sumTerms (tabGet [] u.run.sums u.site) terms).1).1, tabGet true u.run.andP u.site && p)) ∧
    (unitReady s n 2 11 [0] u [a] → firesAs (.cvt site) s u [a]
      (emits u [0] (convert u.entry a.data).1 a.p (convert u.entry a.data).2))

/-- The PRED units and TAB (R343, R351, R352, R356, R357, R360): comparisons enter P and set no flag, SEL, DROP, STEER and MERGE pass a
chosen token unchanged, IDX and REP keep their trigger until the last token, and a feedback take past ITMAX takes the
context into Recovering. -/
def Obligations.PredUnitsChooseAndRepeat : Prop :=
  ∀ (s : State) (site : BitVec 12) (u : UnitIn) (a b c : Operand),
    let n := site.toNat
    let t := cmpTy (bits u.entry.sel 4 3)
    let p := fun (k : Nat) (d : BitVec 64) => if t = .f32 then dataOf32 (asF32 u.entry k d).1 else d
    (unitReady s n 2 1 [0, 1] u [a, b] → firesAs (.cmp site) s u [a, b] (emits u [0, 1] (p 0 a.data)
      (condHolds (u.entry.sel % 8) (orderOf t (p 0 a.data) (p 1 b.data)) && (a.p && b.p)) 0)) ∧
    (unitReady s n 2 2 [0, 1, 2] u [a, b, c] → firesAs (.sel site) s u [a, b, c]
      (emits u [0, 1, 2] (if c.p then a.data else b.data) (if c.p then a.p else b.p) 0)) ∧
    (unitReady s n 2 3 [0, 2] u [a, c] → firesAs (.drop site) s u [a, c]
      (if c.p then emits u [0, 2] a.data a.p 0 else { emits u [0, 2] a.data a.p 0 with emit := none })) ∧
    (unitReady s n 2 4 [0, 2] u [a, c] → firesAs (.steer site) s u [a, c]
      { emits u [0, 2] a.data a.p 0 with emit := some (if c.p then 0 else 1, a.data, a.p) }) ∧
    (unitReady s n 2 5 [2, 1] u [c, b] → c.p = false → firesAs (.merge site) s u [c, b]
      { emits u [2, 1] b.data b.p 0 with run := { u.run with takes := tabSet 0 u.run.takes u.site 0 } }) ∧
    (unitReady s n 2 5 [2, 0] u [c, a] → c.p = true →
      (u.entry.count = 0xFFFF ∨ tabGet 0 u.run.takes u.site < u.entry.count) → firesAs (.merge site) s u [c, a]
        { emits u [2, 0] a.data a.p 0 with
          run := { u.run with takes := tabSet 0 u.run.takes u.site (tabGet 0 u.run.takes u.site + 1) } }) ∧
    (unitReady s n 2 5 [2, 0] u [c, a] → c.p = true → u.entry.count ≠ 0xFFFF → u.entry.count ≤ tabGet 0 u.run.takes u.site →
      exec (.merge site) s = .next (enterRecovering (bump32 s (cb u.ctx 7) 0x23) u.ctx 0x0205)) ∧
    (unitReady s n 2 6 [0, 1] u [a, b] → firesAs (.plog site) s u [a, b]
      (emits u [0, 1] a.data (bit (u.entry.sel % 16) (2 * a.p.toNat + b.p.toNat)) 0)) ∧
    (unitReady s n 2 10 [0, 1] u [a, b] →
      let t := cmpTy (bits u.entry.sel 2 1)
      let v := cmpOperand u.entry t 0 a.data
      let w := cmpOperand u.entry t 1 b.data
      let r := minMax t (bit u.entry.sel 0) v.1 w.1
      firesAs (.minmax site) s u [a, b] (emits u [0, 1] r.1 (a.p && b.p) (v.2 ||| w.2 ||| r.2))) ∧
    (∀ k, tabGet 0 u.run.emitted u.site = k →
      let last := u.entry.count ≤ k
      let f := fun (d : BitVec 64) (p : Bool) => { emits u (if last then [0] else []) d p 0 with
        run := { u.run with emitted := tabSet 0 u.run.emitted u.site (if last then 0 else k + 1) } }
      (unitReady s n 2 12 [0] u [a] → firesAs (.idx site) s u [a] (f (BitVec.ofNat 64 k) (decide (k < u.entry.count)))) ∧
      (unitReady s n 2 13 [0] u [a] → firesAs (.rep site) s u [a] (f a.data a.p))) ∧
    (unitReady s n 3 0x10 [0] u [a] → firesAs (.tab site) s u [a] (emits u [0]
      (BitVec.ofNat 64 (leNat (memBytes u.run u.site (8 * min a.data.toNat 255) 8))) a.p 0))

/-- The MEM units (R361, R363, R364, R365): loads, stores, additions in place, streams and encoded blocks, each inside the unit's
capacity, and what an access beyond it gives; the write side of an LDST goes before its read side. An access by the tokens of
another context is not performed, and is an isolation fault of that context (R24; whose fault it is: log 45). -/
def Obligations.MemUnitsLoadAndStore : Prop :=
  ∀ (s : State) (site : BitVec 12) (u : UnitIn) (a b c : Operand),
    let n := site.toNat
    let cap := memCapacity u.entry.mode
    let x := asF32 u.entry 1 c.data
    let m := tabGet 0 u.run.runAt u.site
    (unitReady s n 4 1 [0] u [a] → (operands u [1, 2] = none ∨ outputRoom u.cfg u.run u.quota u.site 1 = false) →
      (a.data.toNat < cap → firesAs (.ldstRead site) s u [a]
        (emits u [0] (memLoad u u.run a.data.toNat).1 a.p (memLoad u u.run a.data.toNat).2)) ∧
      (cap ≤ a.data.toNat → firesAs (.ldstRead site) s u [a]
        { emits u [0] (memAbsent u.entry.mode) false 0 with outOfRange := true })) ∧
    (unitReady s n 4 1 [0] u [a] → operands u [1, 2] = some [b, c] → outputRoom u.cfg u.run u.quota u.site 1 = true →
      exec (.ldstRead site) s = .next s) ∧
    (unitReady s n 4 1 [1, 2] u [b, c] →
      (b.data.toNat < cap → firesAs (.ldstWrite site) s u [b, c]
        { emits u [1, 2] 0 true (memStore u u.run b.data.toNat c.data).2 with
          emit := some (1, b.data, b.p && c.p), run := (memStore u u.run b.data.toNat c.data).1 }) ∧
      (cap ≤ b.data.toNat → firesAs (.ldstWrite site) s u [b, c]
        { emits u [1, 2] 0 true 0 with emit := some (1, b.data, false), outOfRange := true })) ∧
    (unitReady s n 4 2 [0, 1] u [a, b] →
      (a.data.toNat < cap → let v := rmwValue u a.data.toNat b.data
        firesAs (.rmw site) s u [a, b] { emits u [0, 1] v.2.1 (a.p && b.p) v.2.2 with
          run := setMemBytes u.run u.site (memWidth u.entry.mode * a.data.toNat) v.1 }) ∧
      (cap ≤ a.data.toNat → firesAs (.rmw site) s u [a, b]
        { emits u [0, 1] (memAbsent u.entry.mode) false 0 with outOfRange := true })) ∧
    (unitReady s n 4 3 [0] u [a] → ∀ k, tabGet 0 u.run.emitted u.site = k →
      let v := memRead1 u u.run (streamAddress u.entry a.data k) a.p
      firesAs (.stream site) s u [a]
        { emits u (if u.entry.count ≤ k then [0] else []) v.1 v.2.1 v.2.2.1 with
          run := { u.run with emitted := tabSet 0 u.run.emitted u.site (if u.entry.count ≤ k then 0 else k + 1) },
          outOfRange := v.2.2.2 }) ∧
    (∀ g, shortOf u.entry.mode = some g → m % 32 ≠ 31 → m < u.entry.count → unitReady s n 4 4 [2] u [c] →
      firesAs (.stb site) s u [c] (stbTake x.1 c x.2 u)) ∧
    (∀ g, shortOf u.entry.mode = some g → (m % 32 = 31 ∨ u.entry.count ≤ m) → unitReady s n 4 4 [1, 2] u [b, c] →
      firesAs (.stb site) s u [b, c] (stbWrite g x.1 x.2 u b c)) ∧
    (∀ r i o (bs : Bytes), r = setMemBytes u.run i o bs → u.run.queues = r.queues ∧ u.run.spill = r.spill) ∧
    (∀ i op ins out os d, (i, op, ins, out) ∈ [(Instr.ldstRead site, 1, [0], 0), (.ldstWrite site, 1, [1, 2], 1),
        (.rmw site, 2, [0, 1], 0), (.stream site, 3, [0], 0)] →
      siteOk n = true → unitIn s n 4 op = some u → operands u ins = some os → tagsDiffer os = false →
      (i = .ldstRead site → operands u [1, 2] = none ∨ outputRoom u.cfg u.run u.quota u.site 1 = false) →
      outputRoom u.cfg u.run u.quota u.site out = true → foreignTo s u os = some d →
      exec i s = .next (enterRecovering s d 0x0203)) ∧
    (∀ g ins os d, shortOf u.entry.mode = some g → ins = (if m % 32 = 31 ∨ u.entry.count ≤ m then [1, 2] else [2]) →
      siteOk n = true → unitIn s n 4 4 = some u → operands u ins = some os → tagsDiffer os = false →
      ((m % 32 = 31 ∨ u.entry.count ≤ m) → outputRoom u.cfg u.run u.quota u.site 1 = true) → foreignTo s u os = some d →
      exec (.stb site) s = .next (enterRecovering s d 0x0203))

/-- The EDGE units (R368, R369, R370, R398, R447, R467, R469, R470): features enter, records leave for the Chimney, tokens leave and
enter the block under credits, and counters are waited for and raised. A record of another context's tokens, and a wait on a
counter that their context does not own, is not performed and is an isolation fault of that context (R24, log 45). -/
def Obligations.EdgeUnitsMeetTheOtherUnits : Prop :=
  ∀ (s : State) (site : BitVec 12) (u : UnitIn) (a b c : Operand),
    let n := site.toNat
    (∀ m rest x, unitReady s n 5 1 [] u [] → tabGet [] u.run.fins u.site = m :: rest → msgAt s m = some x →
      firesAs (.fin site) s u [] { emits u [] (finToken x u.entry.sel).1 (finToken x u.entry.sel).2 0 with
        run := { u.run with fins := tabSet [] u.run.fins u.site rest }, tag := some x.tag }) ∧
    (unitReady s n 5 1 [] u [] → tabGet [] u.run.fins u.site = [] → exec (.fin site) s = .next s) ∧
    (unitReady s n 5 2 [0, 1, 2] u [a, b, c] → exec (.cout site) s = .next (coutPost u.ctx u.entry.mode a b c
      (progress (setRun s u.ctx (firedRun u { emits u [0, 1, 2] 0 true 0 with emit := none } (firingTag s u [a, b, c]))) u.ctx 4))) ∧
    (∀ d, siteOk n = true → unitIn s n 5 2 = some u → operands u [0, 1, 2] = some [a, b, c] → tagsDiffer [a, b, c] = false →
      foreignTo s u [a, b, c] = some d → exec (.cout site) s = .next (enterRecovering s d 0x0203)) ∧
    (∀ k, (a.p = false ∨ (a.data.setWidth 16 : BitVec 16) = 0xFFFF) → coutChoice a k = (0xFFFF, false)) ∧
    (∀ k, a.p = true → (a.data.setWidth 16 : BitVec 16) ≠ 0xFFFF → (a.data.setWidth 16 : BitVec 16).toNat < k →
      coutChoice a k = (a.data.setWidth 16, false)) ∧
    (∀ k, a.p = true → (a.data.setWidth 16 : BitVec 16) ≠ 0xFFFF → k ≤ (a.data.setWidth 16 : BitVec 16).toNat →
      coutChoice a k = (0xFFFF, true)) ∧
    (∀ e, unitReady s n 5 3 [0] u [a] → spreadAt u.cfg u.site = some e → tabGet 0 u.run.credits u.site < e.cred →
      exec (.flo site) s = .next (sendPkt (progress (setRun s u.ctx (firedRun u { emits u [0] 0 true 0 with
        emit := none, run := { u.run with credits := tabSet 0 u.run.credits u.site (tabGet 0 u.run.credits u.site + 1) } }
        (firingTag s u [a]))) u.ctx 4) (siteChannel u.site) (htokPacket e (firingTag s u [a]) a) none)) ∧
    (∀ e, unitReady s n 5 3 [0] u [a] → spreadAt u.cfg u.site = some e → e.cred ≤ tabGet 0 u.run.credits u.site →
      exec (.flo site) s = .next s) ∧
    (∀ t rest e, unitReady s n 5 4 [] u [] → tabGet [] u.run.fli u.site = t :: rest → spreadAt u.cfg u.site = some e →
      firesAs (.fli site) s u [] { emits u [] t.data t.p 0 with
        run := { u.run with fli := tabSet [] u.run.fli u.site rest }, tag := some t.tag,
        post := fun v => sendPkt v (siteChannel u.site) (pkt 0x21 e.x e.y (some t.tag) (e.rcirc + 256 * e.epoch + 65536) []) none }) ∧
    (unitReady s n 5 5 [0, 1] u [a, b] → ownsCounter s (tagCtx (firingTag s u [a, b])) u.entry.sel = true →
      b.data ≤ counterAt s u.entry.sel →
      firesAs (.kwait site) s u [a, b] { emits u [0, 1] a.data a.p 0 with
        run := { u.run with parked := tabErase u.run.parked u.site, released := u.run.released.filter (· != u.site) },
        tag := some (firingTag s u [a, b]) }) ∧
    (unitReady s n 5 5 [0, 1] u [a, b] → ownsCounter s (tagCtx (firingTag s u [a, b])) u.entry.sel = true →
      ¬b.data ≤ counterAt s u.entry.sel →
      exec (.kwait site) s = .next (parkUnit s u a b)) ∧
    (unitReady s n 5 5 [0, 1] u [a, b] → ownsCounter s (tagCtx (firingTag s u [a, b])) u.entry.sel = false →
      exec (.kwait site) s = .next (enterRecovering s (tagCtx (firingTag s u [a, b])) 0x0203)) ∧
    (unitReady s n 5 6 [0, 1] u [a, b] → firesAs (.kinc site) s u [a, b] { emits u [0, 1] a.data a.p 0 with
      post := fun v => requestInc v u.entry.sel (if b.p then b.data else 0) (firingTag s u [a, b]) })

/-- Configurations (R384, R385, R387, R388, R389, R396): a fragment that passes its checks and its proof is Stored, a free empties a
Stored slot, a swap command starts a drain or a cut, the drain phase ends with the old slot Stored and its tokens gone, and
the switch makes the named slot Active with its own tokens and memory. -/
def Obligations.ConfigurationsLoadAndSwap : Prop :=
  ∀ (s : State) (q : Requester) (c : BitVec 6),
    let n := c.toNat
    let i := cb n 7
    let k := selected s q i 3
    (∀ bytes probes im body g g', accepts s q i 4 bytes → stagingFree s = true → (ctxAt s n).image = some im → isLoaded s n = true →
      hslot s k = none → fragmentBody s 4 n bytes = .ok body → readConfig body = some (some g) →
      configOk s (ctxAt s n).live (counterRange s n) g probes = true → epochShared s n g = false →
      proveConfig 8 0 g = some g' → hearthAboveLimit s n im g' = false → configFits s g' = true →
      exec (.configurationLoad q c bytes probes) s = .next (accepted s q i 4 bytes
        (setHslot s k (some { state := .stored, owner := n, cfg := some g', fromImage := false })))) ∧
    (∀ bytes probes im, accepts s q i 4 bytes → stagingFree s = true → (ctxAt s n).image = some im →
      (isLoaded s n = false ∨ (hslot s k).isSome = true) →
      exec (.configurationLoad q c bytes probes) s = .next (refusedWith s q i 4 abState)) ∧
    (accepts s q i 5 [1] → isLoaded s n = true → storedOwn s n k = true →
      exec (.configurationFree q c) s = .next (accepted s q i 5 [1] (setHslot s k none))) ∧
    (accepts s q i 5 [1] → (isLoaded s n = false ∨ storedOwn s n k = false) →
      exec (.configurationFree q c) s = .next (refusedWith s q i 5 abState)) ∧
    (∀ v drain e, (v, drain, e) ∈ [((2 : Byte), true, exec (.drainSwap q c) s), (3, false, exec (.cutSwap q c) s)] →
      accepts s q i 5 [v] →
      (swapAllowed s n k = true → e = .next (accepted s q i 5 [v] (noteFlue s (startSwap s n (some k) drain))) ∧
        (∃ w, swapOf (startSwap s n (some k) drain) n = some w ∧ w.dest = some k ∧ w.drain = drain ∧ w.timedOut = false ∧
          w.switching = (!drain || (configIn s n .active).isNone))) ∧
      (swapAllowed s n k = false → e = .next (refusedWith s q i 5 abState))) ∧
    (∀ w, swapOf s n = some w → w.switching = false → isLoaded s n = true →
      (∃ t, exec (.swapDrainEnd c) s = .next t ∧ swapOf t n = some { w with switching := true, timedOut := !drained s n } ∧
        tokenCount (ctxAt t n).run = 0 ∧ openRecords (ctxAt t n).run = [] ∧
        (∀ a g h, firingConfig s n = some (a, g) → hslot s a = some h → hslot t a = some { h with state := .stored }))) ∧
    (∀ w, swapOf s n = some w → w.switching = true → isLoaded s n = true →
      exec (.swapSwitchDone c) s = .next (noteFlue s (endSwap s n w)) ∧
      (∀ a h g, w.dest = some a → hslot s a = some h → h.cfg = some g →
        hslot (endSwap s n w) a = some { h with state := .active } ∧ swapOf (endSwap s n w) n = none ∧
        (ctxAt (endSwap s n w) n).run.queues = initialTokens g (ctxTag s n) ∧
        (ctxAt (endSwap s n w) n).run.mem = initialMem g) ∧
      (w.dest = none → swapOf (endSwap s n w) n = none ∧ tokenCount (ctxAt (endSwap s n w) n).run = 0)) ∧
    ((swapOf s n = none ∨ isLoaded s n = false) →
      exec (.swapDrainEnd c) s = .next s ∧ exec (.swapSwitchDone c) s = .next s)

/-- Deadlock, spill, sampling and lost sites (R390, R391, R392, R393, R394, R395): while an external wait is pending nothing happens, a
deadlock in a proved program or without a blocking full queue is a hang, and otherwise every blocking queue keeps its
head and spills the rest; a snapshot adds one to the bin of every input; a retired site takes the running configurations with
a unit there into Recovering, and its column takes the group's spare, or becomes unusable where the spare is taken; a site
retired before is retired again only while its column is usable. -/
def Obligations.DeadlocksSpillsSamplesAndSites : Prop :=
  (∀ (s : State) (c : BitVec 6) (slot : Nat) (g : HConfig),
    let n := c.toNat
    let r := (ctxAt s n).run
    let quota := val s (cb n 7) 0xB
    let blocked := (blockingQueues r quota g).eraseDups
    let spilled := blocked.foldl spillQueue r
    configIn s n .active = some (slot, g) → isLoaded s n = true →
    ((tokenCount r = 0 ∨ externalWait s n g = true) → exec (.deadlockDetect c) s = .next s) ∧
    (tokenCount r ≠ 0 → externalWait s n g = false → boundQueueHeld r g = true →
      exec (.deadlockDetect c) s = .next (enterRecovering (bump32 s (cb n 7) 0xE) n 0x0204)) ∧
    (tokenCount r ≠ 0 → externalWait s n g = false → boundQueueHeld r g = false →
      ((blocked = [] ∨ quota < spillCount spilled) →
        exec (.deadlockDetect c) s = .next (enterRecovering (bump32 s (cb n 7) 0xE) n 0x0204)) ∧
      (blocked ≠ [] → spillCount spilled ≤ quota → exec (.deadlockDetect c) s =
        .next (bumpBy 64 (setRun s n spilled) (cb n 7) 0xC blocked.length)))) ∧
  (∀ (r : HRun) (site inp : Nat) (t : Token) (rest : List Token), queueAt r site inp = t :: rest →
    queueAt (spillQueue r (site, inp)) site inp = [t] ∧ spillAt (spillQueue r (site, inp)) site inp = rest ++ spillAt r site inp) ∧
  (∀ s : State, (val s 0x2800 2 = 0 → exec .queueSample s = .next s) ∧
    (val s 0x2800 2 ≠ 0 → ∃ t, exec .queueSample s = .next t ∧ reg t 0x2800 3 0 = (reg s 0x2800 3 0 + 1) % 2 ^ 64 ∧
      (∀ c, c < 64 → (∀ slot g, configIn s c .active = some (slot, g) → ctxAt t c =
        { ctxAt s c with run := sampleConfig g (ctxAt s c).run }) ∧ (configIn s c .active = none → ctxAt t c = ctxAt s c)) ∧
      t.work = s.work ∧ t.grid = s.grid ∧ t.chim = s.chim ∧ t.quartz = s.quartz)) ∧
  (∀ (s : State) (q : Requester) (c : BitVec 6) (v : Byte), let i := cb c.toNat 7
    (v = 1 → accepts s q i 0x12 [v] → exec (.histogramClear q c v) s = .next (accepted s q i 0x12 [v]
      (setRun s c.toNat { (ctxAt s c.toNat).run with bins := [] }))) ∧
    (v ≠ 1 → heard s q = true → served s = true → accessAbort s q i 0x12 = none → otherOpen s q i 0x12 = false →
      exec (.histogramClear q c v) s = .next (refusedWith s q i 0x12 abRange))) ∧
  (∀ (s : State) (site : BitVec 12),
    let x := site.toNat
    siteOk x = true →
    (x ∈ s.grid.retired → columnUnusable s (siteCol x) = true → exec (.siteRetire site) s = .next s) ∧
    ((x ∉ s.grid.retired ∨ columnUnusable s (siteCol x) = false) →
      let u := bump32 { s with grid := { s.grid with retired := s.grid.retired ++ [x] } } 0x2800 0xA
      let u := noteRetired u 1 x ((s.grid.retired ++ [x]).filter fun y => siteGroup y = siteGroup x).length
      let u := ((heldConfigs u).filter fun h => (unitAt h.2 x).isSome).foldl (fun u h => enterRecovering u h.1 0x0206) u
      (spareColumn u (siteGroup x) = none → exec (.siteRetire site) s = .next (rewriteColumn
        (soot (takeSpare u (siteGroup x) (siteCol x % 8)) 0x2801 none x (siteGroup x)) (siteCol x))) ∧
      (spareColumn u (siteGroup x) ≠ none → exec (.siteRetire site) s = .next (noteFlue s (loseColumn
        (soot u 0x2801 none (x + 65536) (siteGroup x)) (siteCol x))))))

/-! ### Chimney (13) -/

/-- Record intake and the risk checks (R16, R403, R404, R409, R413, R414, R415): the record whose turn it is leaves the intake; it is
dropped when stale, recorded as a no-send without a template, and otherwise composed and checked in the order of R413; an
accepted reply takes one token from each bucket tested and waits in its port's queue, or in its context's wait line for the
port where its template waits for a counter, which its context must own. -/
def Obligations.RecordsBecomeCheckedReplies : Prop :=
  (∀ (s : State) (c : BitVec 6) (m : Nat) (x : Msg) (r : Record),
    let n := c.toNat
    let u := { s with chim := { s.chim with intake := tabSet [] s.chim.intake n ((tabGet [] s.chim.intake n).filter (· != m)) } }
    let v := chimSample (setMsg u m { x with entered := true }) m 1 r.choice.toNat
    let y := fun (t : Template) => newReply v m x r t (t.body.take t.len) 0 0
    let ended := fun (t : Template) => endComposed v m (y t)
    (nextRecord s n = none ∨ domIsOn s 32 = false → exec (.recordIntake c) s = .next s) ∧
    (domIsOn s 32 = true → nextRecord s n = some (m, x, r) →
      (tagCurrent u x.tag = false → exec (.recordIntake c) s = .next (staleDrop u x.tag)) ∧
      (tagCurrent u x.tag = true → x.delivered = true → exec (.recordIntake c) s = .next u) ∧
      (tagCurrent u x.tag = true → x.delivered = false →
        (r.choice = 0xFFFF ∨ templateAt v x.ctx r.choice.toNat = none ∨
          (∃ t, templateAt v x.ctx r.choice.toNat = some t ∧ (t.valid = false ∨ t.len = 0)) →
          exec (.recordIntake c) s = .next (noSend v m (cb x.ctx 8) 0x0E)) ∧
        (∀ t, r.choice ≠ 0xFFFF → templateAt v x.ctx r.choice.toNat = some t → t.valid = true → t.len ≠ 0 →
          (replyVerdict v (y t) = some false → exec (.recordIntake c) s = .next (bump (ended t) (cb x.ctx 2) 0x0F)) ∧
          (replyVerdict v (y t) ≠ some false → t.sess = true → val v (0x2910 + t.session) 2 ≠ 1 →
            exec (.recordIntake c) s = .next (bump (ended t) (cb x.ctx 8) 8)) ∧
          (replyVerdict v (y t) ≠ some false → (t.sess = false ∨ val v (0x2910 + t.session) 2 = 1) →
            (composeBody x r t.slots (y t).body = none ∨ quantityOf v x r t = none ∨ priceOf v x r t = none →
              exec (.recordIntake c) s = .next (bump (ended t) (cb x.ctx 8) 6)) ∧
            (∀ body qty price, composeBody x r t.slots (y t).body = some body → quantityOf v x r t = some qty →
              priceOf v x r t = some price →
              let p := match price with | some p => some p | none => referenceOf v x
              let k := riskCheck v x t qty p
              (k ≠ 0 → exec (.recordIntake c) s =
                .next (riskRecord (ended t) x.ctx x.tag r.choice.toNat k qty (BitVec.ofInt 64 (p.getD 0)))) ∧
              (k = 0 → exec (.recordIntake c) s = .next (acceptReply v x t
                { y t with body := body, qty := BitVec.ofNat 64 qty, price := BitVec.ofInt 64 (p.getD 0) })))))))) ∧
  (∀ (s : State) (x : Msg) (t : Template) (qty : Nat) (p : Option Int),
    let k := riskCheck s x t qty p
    let session := 0x2910 + t.session
    (val s 0x2900 1 = 1 → k = 1) ∧
    (val s 0x2900 1 ≠ 1 → (val s (cb x.ctx 9) 1 = 1 → k = 2) ∧
    (val s (cb x.ctx 9) 1 ≠ 1 → (t.sess = true → val s session 8 = 1 → k = 3) ∧
    (t.sess = false ∨ val s session 8 ≠ 1 → (val s (cb x.ctx 9) 2 < qty → k = 4) ∧
    (qty ≤ val s (cb x.ctx 9) 2 → (notionalFails s x.ctx qty (t.qins ≠ 0xFF) p = true → k = 5) ∧
    (notionalFails s x.ctx qty (t.qins ≠ 0xFF) p = false → (bandFails s x.ctx (referenceOf s x) p = true → k = 6) ∧
    (bandFails s x.ctx (referenceOf s x) p = false → ((∃ b, b ∈ testedBuckets s x.ctx t ∧ tokensOf s b = 0) → k = 7) ∧
      ((∀ b, b ∈ testedBuckets s x.ctx t → tokensOf s b ≠ 0) → k = 0)))))))) ∧
  (∀ (s : State) (x : Msg) (t : Template) (y : Reply), x.ctx < 64 → t.kwait = 0xFFFF →
    let u := acceptReply s x t y
    (∀ b, b ∈ testedBuckets s x.ctx t → tokensOf u b = tokensOf s b - 1) ∧
    (∀ b, b ∉ testedBuckets s x.ctx t → tokensOf u b = tokensOf s b) ∧
    replyAt u s.chim.nextReply = some { y with state := .queued, entered := admNow s, parked := false } ∧
    s.chim.nextReply ∈ (portAt u y.port).queue) ∧
  (∀ (s : State) (x : Msg) (t : Template) (y : Reply), x.ctx < 64 → t.kwait ≠ 0xFFFF →
    let u := acceptReply s x t y
    let v := (testedBuckets s x.ctx t).foldl (fun v b => setTokens v b (tokensOf v b - 1)) s
    let v := { v with chim := { v.chim with nextReply := s.chim.nextReply + 1 } }
    (ownsCounter s x.ctx t.kwait = false → u = enterRecovering (setReply v s.chim.nextReply y) x.ctx 0x0203) ∧
    (ownsCounter s x.ctx t.kwait = true →
      (∀ b, b ∈ testedBuckets s x.ctx t → tokensOf u b = tokensOf s b - 1) ∧
      (∀ b, b ∉ testedBuckets s x.ctx t → tokensOf u b = tokensOf s b) ∧
      (∃ z, replyAt u s.chim.nextReply = some z ∧ z.state = y.state ∧ z.body = y.body) ∧
      s.chim.nextReply ∈ lineAt u y.ctx y.port)) ∧
  (∀ (s : State) (c : BitVec 6) (session : Option (BitVec 6)),
    let b := match session with | some k => 64 + k.toNat | none => c.toNat
    (bucketDepth s b ≠ noBucket → tokensOf s b < bucketDepth s b → exec (.bucketRefill c session) s =
      .next (setTokens s b (tokensOf s b + 1))) ∧
    (bucketDepth s b = noBucket ∨ bucketDepth s b ≤ tokensOf s b → exec (.bucketRefill c session) s = .next s))

/-- Replies from their wait to their end (R67, R83, R114, R122, R189, R190, R418, R420, R421, R422, R425, R428, R429): a head leaves
its wait line when its comparison holds, or at its deadline less t_tx; the head of a port's queue is released or suppressed
by the first rule that applies, or asks a preemptable frame to yield; a late reply is held for its no-send at the deadline; the
FCS is chosen at the commit point, and the end counts the frame; a corrected template error is counted, another suppresses. The
order of the rules that suppress is the model's (notes/assumptions/31). -/
def Obligations.RepliesAreReleasedAndEnd : Prop :=
  ∀ (s : State) (c : BitVec 6) (p : BitVec 3) (r : Nat) (x : Reply) (t : Template), replyAt s r = some x →
    let n := c.toNat
    let k := p.toNat
    let i := 0x2110 + x.port
    ((lineAt s n k).head? = some r →
      (x.parked = false → domIsOn s 32 = true →
        exec (.waitLineRelease c p) s = .next (enterQueue (leaveLine (advanceTicket s x) n k r) r x)) ∧
      (x.parked = true ∨ domIsOn s 32 = false → exec (.waitLineRelease c p) s = .next s)) ∧
    ((lineAt s n k).head? = none → exec (.waitLineRelease c p) s = .next s) ∧
    (expiredWait s n k = some (r, x) → exec (.counterWaitExpired c p) s =
        .next (soot (suppressIn (advanceTicket s x) r x (cb x.ctx 8) 7) 0x2902 (some x.tag) x.template (ticketOf s n x.template)) ∧
      (∃ d, x.deadline = some d ∧ d - tTx (replySpeed s k) ≤ admNow s)) ∧
    (expiredWait s n k = none → exec (.counterWaitExpired c p) s = .next s) ∧
    ((portAt s k).queue.head? = some r → templateAt s x.ctx x.template = some t →
      let done := fun u : State => exec (.replyRelease p) s = .next (resumeTx u k)
      (releaseOpen s k x = false ∨ domIsOn s 32 = false → exec (.replyRelease p) s = .next s) ∧
      (releaseOpen s k x = true → domIsOn s 32 = true → txYields s k = false → exec (.replyRelease p) s = .next (preemptTx s k)) ∧
      (releaseReady s k x = true → domIsOn s 32 = true →
        (releaseLate s k x = true → lateAction s x.ctx = 1 → done (holdLate s r x)) ∧
        (releaseLate s k x = false ∨ lateAction s x.ctx ≠ 1 →
          (t.sess = true → val s (0x2910 + t.session) 2 ≠ 1 → done (suppressIn s r x (cb x.ctx 8) 8)) ∧
          (t.sess = false ∨ val s (0x2910 + t.session) 2 = 1 →
            (linkUp (portAt s k) = false →
              done (soot (suppressIn s r x (0x2110 + k) 0x13) 0x2102 (some x.tag) k x.template)) ∧
            (linkUp (portAt s k) = true → t.l4 = 2 → ringFull s x.ctx = true →
              done (soot (suppressIn s r x (cb x.ctx 8) 9) 0x2904 (some x.tag) t.session (val s (0x2910 + t.session) 4))) ∧
            (linkUp (portAt s k) = true → (t.l4 ≠ 2 ∨ ringFull s x.ctx = false) →
              (releaseLate s k x = false → done (sendReply s k r x t)) ∧
              (releaseLate s k x = true →
                done (sendReply (boundMiss s x.ctx x.layout x.tag 0 (lateness s k x)) k r x t))))))) ∧
    (∀ d, x.deadline = some d →
      (d ≤ admNow s → holdLate s r x = boundMiss (suppress s r x) x.ctx x.layout x.tag 1 0) ∧
      (admNow s < d → holdLate s r x = setReply (unqueue s r x) r { x with state := .late })) ∧
    (lateDue s k = some (r, x) → exec (.releaseDeadlineMiss p) s =
      .next (boundMiss (suppress s r x) x.ctx x.layout x.tag 1 0) ∧ x.deadline.getD 0 ≤ admNow s) ∧
    (lateDue s k = none → lateReply s k = some (r, x) → exec (.releaseDeadlineMiss p) s = .next (resumeTx (holdLate s r x) k) ∧
      (∃ d, x.deadline = some d ∧ d - tTx (replySpeed s k) < admNow s)) ∧
    (∀ m y, lateDue s k = none → lateReply s k = none → lateMessage s k = some (m, y) → exec (.releaseDeadlineMiss p) s =
      .next (settleEns (boundMiss (deliver s m) y.ctx y.layout y.tag 1 0) y.ctx)) ∧
    (lateDue s k = none → lateReply s k = none → lateMessage s k = none → exec (.releaseDeadlineMiss p) s = .next s) ∧
    (x.state = .sending → x.commit = none →
      (x.torn = false → (x.verified = true ∨ replyVerdict s x = some true) → exec (.commitPoint r) s =
        .next (emit (setReply s r { x with commit := some true })
          (.fcs x.port r true (padded x.body).length (fcsBytes (padded x.body))))) ∧
      (∀ j sub, (x.torn = true ∧ j = cb x.ctx 0x0C ∧ sub = 0x0D) ∨ (x.torn = false ∧ x.verified = false ∧ j = cb x.ctx 2 ∧
          (replyVerdict s x = some false ∧ sub = 0x10 ∨ replyVerdict s x = none ∧ sub = 0x11)) →
        exec (.commitPoint r) s = .next (emit (holdSession (bump (bump (setReply s r { x with commit := some false })
          j sub) i 0x11) x) (.fcs x.port r false (padded x.body).length (stompBytes (padded x.body)))))) ∧
    (x.state ≠ .sending ∨ x.commit.isSome = true → exec (.commitPoint r) s = .next s) ∧
    (∀ good, x.state = .sending → x.commit = some good → x.port < 8 → x.ctx < 64 → ∃ u, exec (.replyEnd r) s = .next u ∧
      replyAt u r = some { x with state := .ended } ∧ (portAt u x.port).sending = (portAt s x.port).sending.filter (· != r) ∧
      reg u i 0x0D 0 = (reg s i 0x0D 0 + 1) % 2 ^ 64 ∧ reg u i 0x0E 0 = (reg s i 0x0E 0 + wireBytes x) % 2 ^ 64 ∧
      reg u (cb x.ctx 8) 5 0 = (if good then (reg s (cb x.ctx 8) 5 0 + 1) % 2 ^ 64 else reg s (cb x.ctx 8) 5 0) ∧
      u.work = s.work ∧ u.quartz = s.quartz ∧ u.power = s.power) ∧
    ((portAt s k).sending.head? = some r → exec (.txUnderrun p) s =
      .next (let u := endStomped (bump s (0x2110 + k) 0x12) r { x with underrun := true } 2
        resumeTx (leaveGap (emit (if x.commit = some false then u else bump u (0x2110 + k) 0x11)
          (.fcs k r false (replySent s x) (stompBytes ((padded x.body).take (replySent s x))))) k 16) k)) ∧
    (exec (.templateError r .corrected) s = .next (bump s 0x2900 3)) ∧
    (∀ kind, kind ≠ .corrected → x.state = .waiting ∨ x.state = .queued →
      let u := soot (suppressIn s r x 0x2900 4) 0x2905 (some x.tag) x.template 0
      (kind ≠ .uncorrectable → exec (.templateError r kind) s = .next u) ∧
      (kind = .uncorrectable → ∃ v, exec (.templateError r kind) s = .next v ∧ x.template ∈ (ctxAt v x.ctx).damaged ∧
        v.objs = u.objs ∧ v.chim = u.chim)) ∧
    (∀ kind, kind ≠ .corrected → x.state ≠ .waiting → x.state ≠ .queued → exec (.templateError r kind) s = .next s) ∧
    (∀ j : BitVec 12, exec (.templateRewriteDone c j) s =
      .next (setCtx s n { ctxAt s n with damaged := (ctxAt s n).damaged.filter (· != j.toNat) }))

/-- Kills, send sessions and the resend ring (R417, R423, R426, R532): a kill write is checked only for service, existence, access and
scope, and at once suppresses every waiting or queued reply it governs; a session opens from Closed, resumes from Held
and closes from any state; the release index names an entry of the ring (the last is the model's reading,
notes/assumptions/31). -/
def Obligations.KillsAndSessionsAreCommanded : Prop :=
  (∀ (s : State) (q : Requester) (c session : BitVec 6) (v : Byte) (i : Instr) (k sub : Nat),
    (i, k, sub) ∈ [(Instr.globalKill q v, 0x2900, 1), (.contextKill q c v, cb c.toNat 9, 1),
      (.sessionKill q session v, 0x2910 + session.toNat, 8)] →
    (heard s q = false → exec i s = .next s) ∧
    (heard s q = true → v.toNat ≤ 1 →
      (served s = true → accessAbort s q k sub = none →
        exec i s = .next (respond (applyKills (put s k sub v.toNat)) q k sub 0 [])) ∧
      (∀ a, served s = true → accessAbort s q k sub = some a → exec i s = .next (respond s q k sub a [])) ∧
      (served s = false → exec i s = .next (respond s q k sub abState []))) ∧
    (∀ a, heard s q = true → 1 < v.toNat → writeAbort s q k sub [v] = some a →
      exec i s = .next (refusedWith s q k sub a))) ∧
  (∀ (s : State) (r : Nat) (x : Reply) (t : Template), replyAt s r = some x → (x.state = .waiting ∨ x.state = .queued) →
    templateAt s x.ctx x.template = some t → killCheck s x.ctx t ≠ 0 →
    ∃ y, replyAt (applyKills s) r = some y ∧ y.state = .ended) ∧
  (∀ (s : State) (q : Requester) (k : BitVec 6),
    let i := 0x2910 + k.toNat
    (accepts s q i 3 [1] → (val s i 2 = 0 → exec (.sessionOpen q k) s = .next (accepted s q i 3 [1] (put s i 2 1))) ∧
      (val s i 2 ≠ 0 → exec (.sessionOpen q k) s = .next (refusedWith s q i 3 abState))) ∧
    (accepts s q i 3 [2] → (val s i 2 = 2 → exec (.sessionResume q k) s = .next (accepted s q i 3 [2] (put s i 2 1))) ∧
      (val s i 2 ≠ 2 → exec (.sessionResume q k) s = .next (refusedWith s q i 3 abState))) ∧
    (accepts s q i 3 [3] → exec (.sessionClose q k) s = .next (accepted s q i 3 [3] (put s i 2 0)))) ∧
  (∀ (s : State) (q : Requester) (c : BitVec 6) (v : BitVec 16),
    let i := cb c.toNat 8
    let data := toLe 2 v.toNat
    accepts s q i 0x0D data →
    (v.toNat < max 1 (rentOf s c.toNat) →
      exec (.resendReleaseWrite q c v) s = .next (accepted s q i 0x0D data (put s i 0x0D v.toNat))) ∧
    (max 1 (rentOf s c.toNat) ≤ v.toNat → exec (.resendReleaseWrite q c v) s = .next (refusedWith s q i 0x0D abRange)))

/-! ### Sync counters (15) -/

/-- Increments and hand sets (R463, R465, R466, R467, R470, R477, R478, R479): a request waits its turn, the oldest one saturates at
the top and wakes every waiter whose comparison holds, one that does not own its counter takes its context into
Recovering, and a hand set never lowers a counter and is logged either way. -/
def Obligations.CountersRiseAndSaturate : Prop :=
  (∀ (s : State) (q : Requester) (c : BitVec 6) (n : BitVec 64),
    let i := cb c.toNat 0x0B
    let k := selected s q i 3
    let r := counterRange s c.toNat
    let st := ctxState s c.toNat
    accepts s q i 5 (toLe 8 n.toNat) →
    (r.1 ≤ k → k < r.1 + r.2 →
      (st = .closed ∨ st = .opened ∨ st = .recovering → exec (.increment q c n) s =
        .next (accepted s q i 5 (toLe 8 n.toNat) (requestInc s k n (ctxTag s c.toNat)))) ∧
      (st = .free ∨ st = .loading ∨ st = .unloading → exec (.increment q c n) s = .next (refusedWith s q i 5 abState))) ∧
    (k < r.1 ∨ r.1 + r.2 ≤ k → exec (.increment q c n) s = .next (refusedWith s q i 5 abRange))) ∧
  (∀ s : State, s.ctr.requests = [] → exec .counterUpdate s = .next s) ∧
  (∀ (s : State) (r : IncReq) (rest : List IncReq),
    let u := { s with ctr := { s.ctr with requests := rest } }
    let sum := (counterAt s r.counter).toNat + r.amount.toNat
    s.ctr.requests = r :: rest →
    (ownsCounter u (tagCtx r.tag) r.counter = true → ∃ t, exec .counterUpdate s = .next t ∧
      (counterAt t r.counter).toNat = min sum (2 ^ 64 - 1) ∧ (∀ j, j ≠ r.counter → counterAt t j = counterAt s j) ∧
      reg t 0x2B00 7 0 = (reg s 0x2B00 7 0 + 1) % 2 ^ 64 ∧
      reg t 0x2B00 6 0 = (if 2 ^ 64 ≤ sum then (reg s 0x2B00 6 0 + 1) % 2 ^ 32 else reg s 0x2B00 6 0) ∧
      (∀ j, j ∈ t.ctr.saturated ↔ j ∈ s.ctr.saturated ∨ (j = r.counter ∧ 2 ^ 64 ≤ sum)) ∧
      (∀ c e, e ∈ (ctxAt t c).run.parked → e.2.1 = r.counter → ¬ e.2.2 ≤ counterAt t r.counter) ∧
      t.ctr.requests = rest ∧ t.work = s.work ∧ t.grid = s.grid ∧ t.quartz = s.quartz ∧ t.net = s.net) ∧
    (ownsCounter u (tagCtx r.tag) r.counter = false →
      exec .counterUpdate s = .next (enterRecovering u (tagCtx r.tag) 0x0203))) ∧
  (∀ (s : State) (q : Requester) (v : BitVec 64),
    let k := selected s q 0x2B00 1
    let old := counterAt s k
    let u := changeCounter s k v
    accepts s q 0x2B00 2 (toLe 8 v.toNat) →
    (v.toNat < old.toNat → exec (.handSet q v) s =
      .next (respond (logHandSet s q k old.toNat v.toNat 0 true) q 0x2B00 2 abRange []) ∧
      counterAt (logHandSet s q k old.toNat v.toNat 0 true) k = old) ∧
    (old.toNat ≤ v.toNat → counterOwner s k = none → exec (.handSet q v) s =
      .next (respond (logHandSet s q k old.toNat v.toNat 0 true) q 0x2B00 2 abState [])) ∧
    (old.toNat ≤ v.toNat → counterOwner s k ≠ none → exec (.handSet q v) s =
      .next (accepted s q 0x2B00 2 (toLe 8 v.toNat) (logHandSet (bump32 u.2 0x2B00 5) q k old.toNat v.toNat u.1 false)) ∧
      counterAt u.2 k = v ∧ (∀ j, j ≠ k → counterAt u.2 j = counterAt s j) ∧
      (∀ c e, e ∈ (ctxAt u.2 c).run.parked → e.2.1 = k → ¬ e.2.2 ≤ v)))

/-! ### Flue (14) -/

/-- Packets at the inbound edge (R439, R440, R441, R447, R448, R450, R451, R452, R453, R454, R456): the link's checks, the reserved
fields and the tag come first, and then each type has its own effect: requests are answered, responses are matched, tokens
and credits reach their units, and beacons take the contexts of their group into Recovering. -/
def Obligations.PacketsHaveTheirEffects : Prop :=
  ∀ (s : State) (f : BitVec 8) (bs : Packet) (e : Nat),
    let n := f.toNat
    let x := chanAt s n
    let u := acceptPkt s n bs
    let p := pktOf bs
    let a := p.arg.toNat
    let run := fun c => (ctxAt u c).run
    (∀ i type, (i, type) ∈ [(Instr.rd f bs, 0x01), (.wr f bs, 0x02), (.brd f bs, 0x03), (.probe f bs, 0x04), (.rdData f bs, 0x81),
        (.wrAck f bs, 0x82), (.probeAck f bs e, 0x84), (.doorbell f bs, 0x11), (.htok f bs, 0x20), (.hcred f bs, 0x21),
        (.beacon f bs, 0x30)] →
      (x.state ≠ .up ∨ byteAt bs 0 ≠ BitVec.ofNat 8 type → exec i s = .next s) ∧
      (x.state = .up → byteAt bs 0 = BitVec.ofNat 8 type →
        (pktGood bs = false → exec i s = .next (crcBad s n bs)) ∧
        (pktGood bs = true → pktSeq bs ≠ x.rxSeq → exec i s = .next (discardPkt s n bs))) ∧
      (linkAccepts s n type bs →
        (pktReservedOk bs = false →
          (type < 5 → exec i s = .next (refuseInbound (answer u n p (type + 0x80) 2 (if type = 4 then a else 0) []))) ∧
          (5 ≤ type → exec i s = .next (refuseInbound u))) ∧
        (pktReservedOk bs = true → p.ctxv = true → tagCurrent s p.tag = false →
          (type < 0x81 → exec i s = .next (staleDrop u p.tag)) ∧
          (0x81 ≤ type → exec i s = .next (freeMatched (staleDrop u p.tag) n p))))) ∧
    (edgeAccepts s n 0x01 bs → exec (.rd f bs) s = .next (refuseInbound (answer u n p 0x81 2 0 []))) ∧
    (edgeAccepts s n 0x02 bs → exec (.wr f bs) s = .next (refuseInbound (answer u n p 0x82 2 0 []))) ∧
    (edgeAccepts s n 0x03 bs →
      (∀ data, p.ctxv = true → brdBytes u (tagCtx p.tag) (a % 2 ^ 32) (bits a 47 32) = some data →
        exec (.brd f bs) s = .next (answer u n p 0x83 0 0 data)) ∧
      (p.ctxv = false ∨ brdBytes u (tagCtx p.tag) (a % 2 ^ 32) (bits a 47 32) = none →
        exec (.brd f bs) s = .next (refuseInbound (answer u n p 0x83 2 0 [])))) ∧
    (edgeAccepts s n 0x04 bs → exec (.probe f bs) s = .next (answer u n p 0x84 0 a [])) ∧
    (∀ i type, (i, type) ∈ [(Instr.rdData f bs, 0x81), (.wrAck f bs, 0x82), (.probeAck f bs e, 0x84)] → edgeAccepts s n type bs →
      (matchReq (chanAt u n) p = none → exec i s = .next (bump u 0x2A00 4)) ∧
      (∀ k r, matchReq (chanAt u n) p = some (k, r) →
        (requestLifetime ≤ elapsed u - r.sentAt →
          exec i s = .next (releaseHeld (pump (failReq (abandon (bump u 0x2A00 4) n k) r) n))) ∧
        (elapsed u - r.sentAt < requestLifetime →
          (p.status ≠ 0 → p.status ≠ 3 → exec i s = .next (releaseHeld (pump (failReq (freeReq u n k) r) n))) ∧
          (p.status = 3 → exec i s = .next (releaseHeld (pump (failReq
            (markUnreachable (freeReq u n k) (BitVec.ofNat 16 p.sx, BitVec.ofNat 16 p.sy)) r) n)))))) ∧
    (∀ i type k r, (i, type) ∈ [(Instr.rdData f bs, 0x81), (.wrAck f bs, 0x82), (.probeAck f bs e, 0x84)] → edgeAccepts s n type bs →
      matchReq (chanAt u n) p = some (k, r) → elapsed u - r.sentAt < requestLifetime → p.status = 0 →
      (type = 0x84 → ∀ a b limit, r.purpose ≠ .probeTo a b limit) → exec i s = .next (releaseHeld (pump (freeReq u n k) n))) ∧
    (∀ k r d limit, edgeAccepts s n 0x84 bs → matchReq (chanAt u n) p = some (k, r) →
      elapsed u - r.sentAt < requestLifetime → p.status = 0 → r.purpose = .probeTo d.1 d.2 limit → exec (.probeAck f bs e) s =
        .next (releaseHeld (pump (if e ≤ limit then markReachable (freeReq u n k) d else markUnreachable (freeReq u n k) d) n))) ∧
    (edgeAccepts s n 0x11 bs →
      let r := a % 256
      (r < 8 ∨ 64 ≤ r ∨ ringDir u r = 0 → exec (.doorbell f bs) s = .next (refuseInbound u)) ∧
      (∀ t, 8 ≤ r → r < 64 → ringDir u r ≠ 0 → writeTail r (toLe 2 (bits a 31 16)) u = .ok t →
        exec (.doorbell f bs) s = .next t) ∧
      (8 ≤ r → r < 64 → ringDir u r ≠ 0 → (∀ t, writeTail r (toLe 2 (bits a 31 16)) u ≠ .ok t) →
        exec (.doorbell f bs) s = .next u)) ∧
    (edgeAccepts s n 0x20 bs → ∀ tokens, bits a 23 16 = tokens →
      (circuitOn u n (a % 16) false = none → exec (.htok f bs) s = .next (refuseInbound u)) ∧
      (∀ c g, circuitOn u n (a % 16) false = some (c, g) →
        let held := tabGet [] (run c).fli g.site
        let tag := if p.ctxv then p.tag else ctxTag u c
        let whole := 1 ≤ tokens ∧ tokens ≤ 64 ∧ p.payload.length = 16 * tokens
        (bits a 15 8 ≠ g.epoch → exec (.htok f bs) s = .next (bump u 0x2800 0xB)) ∧
        (bits a 15 8 = g.epoch → ¬whole → exec (.htok f bs) s = .next (refuseInbound u)) ∧
        (bits a 15 8 = g.epoch → whole → tagCtx tag ≠ c →
          exec (.htok f bs) s = .next (enterRecovering (refuseInbound u) (tagCtx tag) 0x0203)) ∧
        (bits a 15 8 = g.epoch → whole → tagCtx tag = c →
          (64 < held.length + tokens → exec (.htok f bs) s = .next (enterRecovering (refuseInbound u) c 0x0203)) ∧
          (held.length + tokens ≤ 64 → exec (.htok f bs) s = .next (setRun u c { run c with
            fli := tabSet [] (run c).fli g.site (held ++ htokTokens tag tokens p.payload) }))))) ∧
    (edgeAccepts s n 0x21 bs →
      (circuitOn u n (a % 16) true = none → exec (.hcred f bs) s = .next (refuseInbound u)) ∧
      (∀ c g, circuitOn u n (a % 16) true = some (c, g) →
        (bits a 15 8 ≠ g.epoch → exec (.hcred f bs) s = .next (bump u 0x2800 0xB)) ∧
        (bits a 15 8 = g.epoch → exec (.hcred f bs) s = .next (setRun u c { run c with
          credits := tabSet 0 (run c).credits g.site (tabGet 0 (run c).credits g.site - bits a 23 16) })))) ∧
    (edgeAccepts s n 0x30 bs →
      (a % 65536 = 0 → exec (.beacon f bs) s = .next (bump32 u 0x2A00 9)) ∧
      (a % 65536 ≠ 0 → exec (.beacon f bs) s =
        .next ((allCtxs.filter fun c => val (bump32 u 0x2A00 9) 0x2A20 (c + 1) = a % 65536).foldl
          (fun t c => if isLoaded t c then enterRecovering (sootCtx t c 0x2C05 (a % 65536 + 65536) 0x0207) c 0x0207
            else if ctxState t c = .recovering then enterRecovering t c 0x0207 else t)
          (bump32 u 0x2A00 9))))

/-- Channels and links (R17, R436, R437, R441, R442, R443, R452, R454, R457, R458): training brings a channel Up with fresh credits and
a replay of what it kept, or retires it; a Down channel trains again (when it does is the model's choice,
notes/assumptions/49); a control flit acknowledges and returns credits, a NAK or a timeout replays, an abandoned request
fails, the beacon line takes the contexts of its mask into Recovering, and unreachable destinations are probed. -/
def Obligations.ChannelsTrainReplayAndRetire : Prop :=
  ∀ (s : State) (f : BitVec 8),
    let n := f.toNat
    let x := chanAt s n
    let trains := noteFlue s (setChan s n { x with state := .training })
    (x.state = .training → domIsOn s (chanDomain n) = true → ∃ t, exec (.channelTrainingDone f) s = .next t ∧
      (let fresh : Chan := { x with
        state := .up, nak := false, credIn := [0, 0, 0], freed := [0, 0, 0], flits := [0, 0, 0],
        unacked := x.unacked.map (fun v => (v.1, 1, v.2.2)), again := x.unacked.map (·.1),
        replays := if x.unacked.isEmpty then x.replays else x.replays + 1 }
      let u := setChan s n fresh
      t = noteFlue s (pump (if x.unacked.isEmpty then u else bump u 0x2A00 6) n)) ∧
      (s.flue.held = [] → (chanAt t n).state = .up ∧ (∀ g, g ≠ n → chanAt t g = chanAt s g)) ∧
      (x.unacked ≠ [] → reg t 0x2A00 6 0 = (reg s 0x2A00 6 0 + 1) % 2 ^ 64) ∧
      t.work = s.work ∧ t.grid = s.grid ∧ t.chim = s.chim ∧ t.quartz = s.quartz) ∧
    (x.state ≠ .training ∨ domIsOn s (chanDomain n) = false → exec (.channelTrainingDone f) s = .next s) ∧
    (x.state = .training → exec (.channelTrainingTimeout f) s = .next (retireChannel s n 2)) ∧
    (x.state ≠ .training → exec (.channelTrainingTimeout f) s = .next s) ∧
    (∀ cause, x.state ≠ .retired → chanReqs x = [] → spreadCtxs s n = [] → s.flue.held = [] →
      (chanAt (retireChannel s n cause) n).state = .retired ∧ (∀ g, g ≠ n → chanAt (retireChannel s n cause) g = chanAt s g)) ∧
    (x.state = .up ∨ x.state = .training → ∃ t, exec (.channelLinkLost f) s = .next t ∧
      t = noteFlue s (setChan s n { x with state := .down, again := [] }) ∧
      (s.flue.held = [] → chanAt t n = { x with state := .down, again := [] } ∧ (∀ g, g ≠ n → chanAt t g = chanAt s g)) ∧
      t.work = s.work) ∧
    (x.state = .down ∨ x.state = .retired → exec (.channelLinkLost f) s = .next s) ∧
    (∀ flit : Flit,
      let type := (byteAt flit 0).toNat
      let good := flit.length = 16 ∧ leAt flit 12 4 = crc32c (flit.take 12)
      let y := { ackTo x (BitVec.ofNat 16 (leAt flit 2 2)) with
        credIn := [BitVec.ofNat 16 (leAt flit 4 2), BitVec.ofNat 16 (leAt flit 6 2), BitVec.ofNat 16 (leAt flit 8 2)] }
      (¬good ∨ (type ≠ 1 ∧ type ≠ 2 ∧ type ≠ 3) ∨ (x.state ≠ .up ∧ type ≠ 3) →
        exec (.linkControlFlit f flit) s = .next s) ∧
      (good → type = 3 →
        (x.state = .down → domIsOn s (chanDomain n) = true → exec (.linkControlFlit f flit) s = .next trains) ∧
        (x.state ≠ .down ∨ domIsOn s (chanDomain n) = false → exec (.linkControlFlit f flit) s = .next s)) ∧
      (x.state = .up → good →
        (type = 1 → exec (.linkControlFlit f flit) s = .next (pump (setChan s n y) n)) ∧
        (type = 2 → exec (.linkControlFlit f flit) s = .next (replay (setChan s n y) n)))) ∧
    (x.state = .up → exec (.statusFlitTimer f) s = .next (emit s (.flit n (ctrlFlit x 1)))) ∧
    (x.state = .training → exec (.statusFlitTimer f) s = .next (emit s (.flit n (ctrlFlit x 3)))) ∧
    (x.state = .down → domIsOn s (chanDomain n) = true → (chanAt trains n).state = .training →
      exec (.statusFlitTimer f) s = .next (emit trains (.flit n (ctrlFlit (chanAt trains n) 3)))) ∧
    (x.state = .retired ∨ (x.state = .down ∧ domIsOn s (chanDomain n) = false) → exec (.statusFlitTimer f) s = .next s) ∧
    (∀ bs : Packet,
      (x.state = .up → pktGood bs = false → exec (.crcError f bs) s = .next (crcBad s n bs)) ∧
      (x.state = .up → pktGood bs = true → pktSeq bs ≠ x.rxSeq → exec (.crcError f bs) s = .next (discardPkt s n bs)) ∧
      (x.state ≠ .up ∨ (pktGood bs = true ∧ pktSeq bs = x.rxSeq) → exec (.crcError f bs) s = .next s) ∧
      (x.nak = true → pktGood bs = true → discardPkt s n bs = setChan s n { freeFlits x bs with nak := true }) ∧
      (x.nak = false ∨ pktGood bs = false → discardPkt s n bs = emit (setChan s n { freeFlits x bs with nak := true })
        (.flit n (ctrlFlit { freeFlits x bs with nak := true } 2)))) ∧
    (x.state = .up → x.unacked ≠ [] → (∀ v, v ∈ x.unacked → v.2.1 < 8) → ∃ t, exec (.replayTimeout f) s = .next t ∧
      reg t 0x2A00 6 0 = (reg s 0x2A00 6 0 + 1) % 2 ^ 64 ∧ (chanAt t n).replays = x.replays + 1 ∧
      (chanAt t n).rxSeq = x.rxSeq ∧ (∀ g, g ≠ n → chanAt t g = chanAt s g)) ∧
    (x.state = .up → (∃ v, v ∈ x.unacked ∧ 8 ≤ v.2.1) → exec (.replayTimeout f) s =
      .next (setChan s n { x with state := .training, again := [] })) ∧
    (x.state ≠ .up ∨ x.unacked = [] → exec (.replayTimeout f) s = .next s) ∧
    (∀ (entry : BitVec 10) (r : Req), tabGet none x.outstanding entry.toNat = some r →
      exec (.requestLifetimeExpired f entry) s = .next (releaseHeld (pump (failReq (setChan s n { x with
        outstanding := tabSet none x.outstanding entry.toNat none,
        reuse := tabSet 0 x.reuse entry.toNat ((tabGet 0 x.reuse entry.toNat + 1) % 64) }) r) n))) ∧
    (∀ entry : BitVec 10, tabGet none x.outstanding entry.toNat = none →
      exec (.requestLifetimeExpired f entry) s = .next s) ∧
    (∀ held, (held < 100 → exec (.faultBeaconLine held) s = .next s) ∧
      (100 ≤ held → exec (.faultBeaconLine held) s =
        .next ((allCtxs.filter fun c => bit (val (bump32 s 0x2A00 0xA) 0x2A00 0xB) c).foldl
          (fun t c => if isLoaded t c then enterRecovering (sootCtx t c 0x2C05 (65536 * 2) 0x0208) c 0x0208
            else if ctxState t c = .recovering then enterRecovering t c 0x0208 else t)
          (bump32 s 0x2A00 0xA)))) ∧
    (s.flue.unreachable = [] ∨ mantelList s = [] → exec .reachabilityProbe s = .next s) ∧
    (∀ d, s.flue.unreachable = [d] → probing s d = true → exec .reachabilityProbe s = .next s) ∧
    (∀ d g rest, s.flue.unreachable = [d] → mantelList s = g :: rest → probing s d = false → exec .reachabilityProbe s =
      .next (sendReq s g (pkt 0x04 d.1.toNat d.2.toNat none 0 []) (.probeTo d.1 d.2 (probeLimit s d))))

/-! ### Power (02, 18) -/

/-- Gauges, droop flags, the supply and temperature (R42, R43, R71, R72, R543, R549, R550, R551, R553, R589): the D that a window's
count gives, what a reading trips and clears, what an evaluation does to the supply, how a sensor's reading warns, counts
toward a shutdown and ends one, and what the power cap does. How the readings of a clear are counted, and that the supply
monitor is read with a window, are the model's readings (notes/assumptions/35 and 44). -/
def Obligations.GaugesSupplyAndTemperature : Prop :=
  (∀ (s : State) (n q : Nat), n ≠ 0 → q * n = 1000 * s.sys.cornerCount → q < 65536 → gaugeRatio s n = q) ∧
  (∀ (s : State) (g n v : Nat) (r : BitVec 16), g < 96 →
    let d := gaugeDomain g
    let x := domAt s d
    let reading := gaugeRatio s n
    let trips := fun k : Nat => val s 0x2380 2 * (2000 + val s 0x2380 3) < 2000 * k
    let liveDone := clearsDone s d (countClear x.clearLive g)
    let breachDone := clearsDone s d (countClear x.clearBreach g)
    (domIsOn s d = false → exec (.gaugeWindow g ⟨n, v⟩) s = .next s ∧ exec (.droopFlag g r) s = .next s) ∧
    (domIsOn s d = true →
      (∃ t, exec (.gaugeWindow g ⟨n, v⟩) s = .next t ∧ tabGet 0 t.power.gauges g = reading ∧
        (trips reading → d ∈ t.power.liveTrip) ∧ (1000 < reading ∨ v < 600 → d ∈ t.power.breach) ∧
        (¬ trips reading → d ∉ s.power.liveTrip → d ∉ t.power.liveTrip) ∧
        (reading ≤ 1000 → 600 ≤ v → d ∉ s.power.breach → d ∉ t.power.breach) ∧
        (4000 * reading ≤ val s 0x2380 2 * (4000 + val s 0x2380 3) → liveDone = true → d ∉ t.power.liveTrip) ∧
        (d ∈ s.power.liveTrip → liveDone = false → d ∈ t.power.liveTrip) ∧
        (reading ≤ 980 → x.tj ≤ 930 → 600 ≤ v → breachDone = true → d ∉ t.power.breach) ∧
        (d ∈ s.power.breach → breachDone = false → d ∈ t.power.breach) ∧
        (domAt t d).open_ = (x.open_ || clearsDone s d (countClear x.clearOn g)) ∧
        (domAt t d).windows = (reading :: x.windows).take (20 * (domainGauges d).length) ∧ (domAt t d).vdd = x.vdd ∧
        (domAt t d).monitor = v ∧ t.work = s.work ∧ t.ctxs = s.ctxs ∧ t.net = s.net) ∧
      (∃ t, exec (.droopFlag g r) s = .next t ∧ (trips r.toNat → d ∈ t.power.liveTrip) ∧ (1000 < r.toNat → d ∈ t.power.breach) ∧
        (¬ trips r.toNat → r.toNat ≤ 1000 → t = s) ∧ t.work = s.work ∧ t.ctxs = s.ctxs))) ∧
  (∀ (s : State) (d : Nat), d < 36 →
    let x := domAt s d
    let u := setDom s d { x with lowerWait := x.lowerWait - 1 }
    let most := x.windows.foldl max 0
    let tripped := d ∈ s.power.liveTrip ∨ d ∈ s.power.breach
    let reg := val s 0x2380 2
    let g := val s 0x2380 3
    (gauged d = false ∨ domIsOn s d = false ∨ x.windows = [] → exec (.supplyEvaluation d) s = .next s) ∧
    (gauged d = true → domIsOn s d = true → x.windows ≠ [] →
      (tripped → x.vdd < 800 → exec (.supplyEvaluation d) s =
        .next (setDom u d { domAt u d with vdd := min 800 (x.vdd + 10) })) ∧
      (tripped → 800 ≤ x.vdd → x.ceiling = true → exec (.supplyEvaluation d) s = .next u) ∧
      (tripped → 800 ≤ x.vdd → x.ceiling = false → exec (.supplyEvaluation d) s =
        .next (emcy (soot (setDom u d { domAt u d with ceiling := true }) 0x2303 none d x.vdd) 0x3120 [BitVec.ofNat 8 d])) ∧
      (¬ tripped → reg * (8000 + g) < 8000 * most → exec (.supplyEvaluation d) s =
        .next (setDom u d { domAt u d with vdd := min 800 (x.vdd + 10) })) ∧
      (¬ tripped → 8000 * most < reg * (8000 - g) → x.lowerWait ≤ 1 → 600 < x.vdd → exec (.supplyEvaluation d) s =
        .next (setDom u d { domAt u d with vdd := x.vdd - 10, lowerWait := 50 })) ∧
      (¬ tripped → 8000 * most ≤ reg * (8000 + g) → (reg * (8000 - g) ≤ 8000 * most ∨ 1 < x.lowerWait ∨ x.vdd ≤ 600) →
        exec (.supplyEvaluation d) s = .next u))) ∧
  (∀ (s : State) (l : List Int), (s.sys.boot = .held → exec (.thermalRead l) s = .next s) ∧
    (s.sys.boot ≠ .held → exec (.thermalRead l) s = .next (((l.take 36).zipIdx).foldl readSensor s))) ∧
  (∀ (s : State) (d : Nat) (r : Int), d < 36 →
    let u := thermalWarning (setDom s d { domAt s d with tj := r }) d
    let y := domAt u d
    (d ≠ 35 → y.retired = true → readSensor s (r, d) = u) ∧
    (d ≠ 35 → y.retired = false → y.thermal = false → r ≤ 950 → readSensor s (r, d) = setDom u d { y with hotReads := 0 }) ∧
    (d ≠ 35 → y.retired = false → y.thermal = false → 950 < r →
      let v := if gauged d && domIsOn u d then
        enterBreach u d ((domainGauges d).headD 0) (tabGet 0 u.power.gauges ((domainGauges d).headD 0)) else u
      (r < 1050 → readSensor s (r, d) = setDom v d { domAt v d with hotReads := 0 }) ∧
      (1050 ≤ r → y.hotReads < 100 → readSensor s (r, d) = setDom v d { domAt v d with hotReads := y.hotReads + 1 }) ∧
      (1050 ≤ r → 100 ≤ y.hotReads → readSensor s (r, d) = shutDown v d)) ∧
    (d ≠ 35 → y.retired = false → y.thermal = true → r ≤ 900 →
      let v := soot (setDom (setDom u d { y with hotReads := 0 }) d { y with hotReads := 0, thermal := false })
        0x2D03 none (d + 512) (unsign 64 r)
      readSensor s (r, d) = if firmwareRuns v then requestOn v d else v) ∧
    (d = 35 → 1150 ≤ r → readSensor s (r, d) = hotReset u) ∧
    (d = 35 → r < 1150 → ¬ (r ≤ 1000 ∧ u.sys.boot = .hot) → readSensor s (r, d) = u) ∧
    (d = 35 → r ≤ 1000 → u.sys.boot = .hot → readSensor s (r, d) = { u with sys := { u.sys with boot := .cold } })) ∧
  (∀ (s : State) (d : Nat), d < 36 →
    let x := domAt s d
    let warm := 10 * (val s 0x2D00 6 : Int) ≤ x.tj
    (warm → x.warned = true → thermalWarning s d = s) ∧
    (warm → x.warned = false → thermalWarning s d = soot (setDom s d { x with warned := true }) 0x2D03 none d (unsign 64 x.tj)) ∧
    (¬ warm → thermalWarning s d = setDom s d { x with warned := false })) ∧
  (∀ (s : State) (d : Nat), d < 36 →
    (d = 35 → exec (.thermalTrip d) s = .next (hotReset s)) ∧
    (d ≠ 35 → s.sys.boot = .held → exec (.thermalTrip d) s = .next s) ∧
    (d ≠ 35 → s.sys.boot ≠ .held → exec (.thermalTrip d) s = .next (shutDown s d)) ∧
    ((domAt s d).retired = true ∨ (domAt s d).thermal = true → shutDown s d = s)) ∧
  (∀ (s : State) (average : Nat) (l : List Nat),
    let u := (l.take 36).zipIdx.foldl (fun t x => setDom t x.2 { domAt t x.2 with power := x.1 % 2 ^ 32 })
      (put s 0x2D00 3 (average % 2 ^ 32))
    (average ≤ 10 * val s 0x2D00 4 → exec (.powerSample average l) s = .next u) ∧
    (10 * val s 0x2D00 4 < average → exec (.powerSample average l) s = .next (bump32 (soot
      ((List.range 36).foldl applyPolicy u) 0x2D05 none average (val s 0x2D00 4)) 0x2D00 5)))

/-- Domains change state and are escalated (R491, R492, R545, R547, R548, R552, R589): a command is refused for a domain in use, retired
or always-on, a change ends and is logged, a policy acts on an unused domain, and an engine that does not report its
purge has its domain cycled twice and then retired. -/
def Obligations.DomainsChangeAndAreEscalated : Prop :=
  (∀ (s : State) (q : Requester),
    let d := selected s q 0x2D20 1
    let x := domAt s d
    (accepts s q 0x2D20 4 [1] →
      (d = 35 → exec (.domainOn q) s = .next (accepted s q 0x2D20 4 [1] s)) ∧
      (d ≠ 35 → (x.retired = true ∨ x.thermal = true) → exec (.domainOn q) s = .next (refusedWith s q 0x2D20 4 abState)) ∧
      (d ≠ 35 → x.retired = false → x.thermal = false →
        exec (.domainOn q) s = .next (accepted s q 0x2D20 4 [1] (requestOn s d)) ∧
        (x.changing = none → x.state ≠ .on → requestOn s d = setDom s d { x with changing := some .on }) ∧
        (x.changing = none → x.state = .on → requestOn s d = s) ∧
        (x.changing = some .banked ∨ x.changing = some .cold → requestOn s d = setDom s d { x with queued := some .on }))) ∧
    (∀ i v dest, (i, v, dest) ∈ [(Instr.domainBank q, (2 : Byte), DomState.banked), (.domainCold q, 3, .cold)] →
      accepts s q 0x2D20 4 [v] →
      (d = 35 ∨ x.retired = true ∨ domInUse s d = true → exec i s = .next (refusedWith s q 0x2D20 4 abState)) ∧
      (d ≠ 35 → x.retired = false → domInUse s d = false →
        exec i s = .next (accepted s q 0x2D20 4 [v] (commandOff s d dest))))) ∧
  (∀ (s : State) (d : Nat), d < 36 →
    let x := domAt s d
    (x.changing = none → ∀ ok, exec (.domainTransitionDone d ok) s = .next s) ∧
    (x.changing = some .on → x.queued = none →
      (∀ ok, fromCold d x.state = false ∨ ok = true → exec (.domainTransitionDone d ok) s = .next (enterOn s d x.state)) ∧
      (fromCold d x.state = true → cycling s d = false →
        exec (.domainTransitionDone d false) s = .next (retireDomain s d))) ∧
    (∀ dest ok, dest ≠ .on → x.changing = some dest → x.queued = none → exec (.domainTransitionDone d ok) s =
      .next (logChange (setDom s d { x with state := dest, changing := none, queued := none }) d x.state dest)) ∧
    (x.policy = 0 ∨ domInUse s d = true → exec (.gateDelayExpired d) s = .next s) ∧
    (x.policy ≠ 0 → domInUse s d = false → exec (.gateDelayExpired d) s =
      .next (leaveOn s d (if x.policy = 1 then .banked else .cold))) ∧
    (∀ dest, d = 35 ∨ x.state ≠ .on ∨ x.changing.isSome = true ∨ x.retired = true → leaveOn s d dest = s) ∧
    (∀ dest, d = 8 ∨ (10 ≤ d ∧ d < 14 ∧ dest = .banked) → x.state = .on → x.changing = none → x.retired = false →
      leaveOn s d dest = setDom s d
        { x with
          changing := some dest, queued := none, open_ := false, vdd := 0, windows := [], monitor := 0, clearLive := [],
          clearBreach := [], clearOn := [], lowerWait := 0 })) ∧
  (∀ (s : State) (c : BitVec 6) (engine : BitVec 3) (d : Nat), d < 36 → engineOk engine = true →
    let n := c.toNat
    ((ctxAt s n).td = none → exec (.purgeTimeout c engine d) s = .next s) ∧
    (∀ t, (ctxAt s n).td = some t →
      let e := (t.escalations.find? fun e => e.domain = d).getD { domain := d, engine := engine.toNat, step := 0, busy := false }
      let r := nextStep s n { e with engine := engine.toNat }
      (t.phase ≠ .purging ∨ ctxState s n = .loading ∨ d = 35 ∨ (domAt s d).retired = true ∨ e.busy = true →
        exec (.purgeTimeout c engine d) s = .next s) ∧
      (t.phase = .purging → ctxState s n ≠ .loading → d ≠ 35 → (domAt s d).retired = false → e.busy = false →
        (e.step < 2 → exec (.purgeTimeout c engine d) s = .next (startCycle r.2 d)) ∧
        (2 ≤ e.step → exec (.purgeTimeout c engine d) s = .next (retireDomain r.2 d))))) ∧
  (∀ (s : State) (d : Nat) (ok purged : Bool), d < 36 →
    (cycling s d = false ∨ (domAt s d).thermal = true → exec (.partitionCycleDone d ok purged) s = .next s) ∧
    (cycling s d = true → (domAt s d).thermal = false → (domAt s d).changing = some .on → ok = true → purged = true →
      let u := endChange s d true
      let waiting := u.ctxs.filterMap fun c => match c.2.td with
        | some t => (t.escalations.find? fun e => e.domain = d && e.busy).map fun e => (c.1, e)
        | none => none
      exec (.partitionCycleDone d ok purged) s =
        .next (waiting.foldl (fun t x => setEscalation t x.1 { x.2 with busy := false }) u)))

/-- Resets and start-up (R494, R517, R533, R554, R555, R556, R557, R558, R560, R561, R563, R564): what a warm reset ends and keeps, what
starts one and with which cause, what a power loss leaves, and the steps from power-on to the open block; and the P
values, the log's milliseconds and the release of a dump. -/
def Obligations.ResetsEndWorkAndStartUpOpens : Prop :=
  (∀ (s : State) (cause : Nat),
    let t := warmReset s cause
    (∀ c, c < 64 → ctxState t c = .free ∧ ctxGen t c = ctxGen s c) ∧ t.ctxs = [] ∧ t.work = Work.reset ∧ t.chim = Chim.reset ∧
    (∀ n, baseAt t n = baseAt s n) ∧ (∀ d, d < 35 → (domAt t d).state = .cold) ∧ t.ctr.values = s.ctr.values ∧
    t.recov.ash = s.recov.ash ∧ t.net.sram = s.net.sram ∧ t.sys.keyHash = s.sys.keyHash ∧ t.sys.boot = .cold ∧
    val t 0x2D00 2 = cause ∧ reg t 0x2001 6 0 = (reg s 0x2001 6 0 + 1) % 2 ^ 32) ∧
  (∀ s : State,
    (firmwareRuns s = true →
      exec .watchdogExpired s = .next (warmReset (bump32 (writeBlockDump s) 0x2C10 6) 2) ∧
      exec .stokerFault s = .next (warmReset (bump32 (writeBlockDump s) 0x2C10 6) 3)) ∧
    (firmwareRuns s = false → exec .watchdogExpired s = .next s ∧ exec .stokerFault s = .next s)) ∧
  (∀ (s : State) (q : Requester), accepts s q 0x2D00 1 [1] →
    exec (.warmReset q) s = .next (accepted s q 0x2D00 1 [1] (warmReset s 4))) ∧
  (∀ (s : State) (q : Requester), accepts s q 0x2D00 1 [2] →
    (exec (.warmResetWithUpdate q none) s = .next (refusedWith s q 0x2D00 1 abState)) ∧
    (∀ bs,
      let box := openBox s.sys.keyHash 5 0xFF (val s 0x2020 3) bs
      (stagingFree s = false → exec (.warmResetWithUpdate q (some bs)) s = .next (refusedWith s q 0x2D00 1 abState)) ∧
      (stagingFree s = true →
        (box = .error .format → exec (.warmResetWithUpdate q (some bs)) s = .next (refusedWith s q 0x2D00 1 abRange)) ∧
        (box = .error .key → exec (.warmResetWithUpdate q (some bs)) s = .next (refusedWith s q 0x2D00 1 abSign)) ∧
        (∀ body, box = .ok body → exec (.warmResetWithUpdate q (some bs)) s = .next (accepted s q 0x2D00 1 [2]
          { warmReset s 5 with sys := { (warmReset s 5).sys with firmware := bs } }))))) ∧
  (∀ (s : State) (low : Nat),
    (low < 1000 → exec (.blkRst low) s = .next s ∧ exec (.powerLoss low) s = .next s) ∧
    (1000 ≤ low →
      (s.sys.boot = .running → exec (.blkRst low) s = .next (warmReset s 1)) ∧
      (s.sys.boot = .starting → exec (.blkRst low) s = .next (endWork s)) ∧
      (s.sys.boot = .firmware → exec (.blkRst low) s = .next { s with sys := { s.sys with boot := .cold } }) ∧
      (s.sys.boot = .cold ∨ s.sys.boot = .held ∨ s.sys.boot = .hot → exec (.blkRst low) s = .next s) ∧
      (∃ t, exec (.powerLoss low) s = .next t ∧ t.objs = State.reset.objs ∧ t.quartz = State.reset.quartz ∧
        t.recov = State.reset.recov ∧ t.ctxs = State.reset.ctxs ∧ t.power = State.reset.power ∧ t.sys.keyHash = [] ∧
        t.sys.boot = State.reset.sys.boot ∧ t.mgmt.pStore = s.mgmt.pSending.foldl storeP s.mgmt.pStore))) ∧
  (∀ (s : State) (hash : Bytes) (units : List (BitVec 8 × Nat)) (domains : List Nat) (repairs : Nat),
    let locked := if s.sys.keyHash.isEmpty then hash else s.sys.keyHash
    (s.sys.boot ≠ .held → exec (.powerOn hash units domains repairs) s = .next s) ∧
    (s.sys.boot = .held →
      (35 ∈ domains → exec (.powerOn hash units domains repairs) s =
        .next (emit { s with sys := { s.sys with keyHash := locked } } .bootFault)) ∧
      (35 ∉ domains → ∃ t, exec (.powerOn hash units domains repairs) s = .next t ∧ t.sys.keyHash = locked ∧
        t.sys.boot = .cold) ∧
      (units = [] → domains = [] → ∃ t, exec (.powerOn hash units domains repairs) s = .next t ∧ val t 0x2D00 2 = 0 ∧
        val t 0x2D00 8 = repairs % 2 ^ 32 ∧ t.power = s.power ∧ t.ctxs = s.ctxs ∧ t.mgmt.pStore = s.mgmt.pStore))) ∧
  (∀ (s : State) (fw : Option Bytes) (images : List (BitVec 6 × Option Bytes × List Nat)) (nodes : List (BitVec 16 × BitVec 16)),
    let bs := if s.sys.firmware.isEmpty then fw.getD [] else s.sys.firmware
    let box := openBox s.sys.keyHash 5 0xFF bs.length bs
    (s.sys.boot = .cold →
      (∀ body, box = .ok body → exec (.warmSequence fw images nodes) s =
        .next (serve { s with sys := { s.sys with firmware := bs, fwId := boxId bs, cornerCount := Config.cornerCount bs } })) ∧
      (∀ e, box = .error e → exec (.warmSequence fw images nodes) s = .next { s with sys := { s.sys with boot := .firmware } })) ∧
    (s.sys.boot = .starting → exec (.warmSequence fw images nodes) s = .next (openUp s images nodes) ∧
      (openUp s images nodes).sys.boot = .running) ∧
    (s.sys.boot = .held ∨ s.sys.boot = .firmware ∨ s.sys.boot = .hot ∨ s.sys.boot = .running →
      exec (.warmSequence fw images nodes) s = .next s) ∧
    (∀ f body, s.sys.boot = .firmware → openBox s.sys.keyHash 5 0xFF f.length f = .ok body →
      exec (.firmwareContainerReceived f) s =
        .next (serve { s with sys := { s.sys with firmware := f, fwId := boxId f, cornerCount := Config.cornerCount f } })) ∧
    (∀ f e, s.sys.boot = .firmware → openBox s.sys.keyHash 5 0xFF f.length f = .error e →
      exec (.firmwareContainerReceived f) s = .next s) ∧
    (∀ f, s.sys.boot ≠ .firmware → exec (.firmwareContainerReceived f) s = .next s) ∧
    ((serve s).sys.boot = .starting ∧ (serve s).mgmt.nmt = .preOperational ∧ served (serve s) = true)) ∧
  (∀ (s : State) (stored : Bool),
    (s.mgmt.pSending = [] → exec (.pValueStoreDone stored) s = .next s) ∧
    (∀ v rest, s.mgmt.pSending = v :: rest →
      let lost := s.mgmt.pLost.filter (· ≠ v.key)
      exec (.pValueStoreDone true) s = .next { s with mgmt := { s.mgmt with
        pSending := rest, pStore := s.mgmt.pStore.filter (fun x => x.key ≠ v.key) ++ [v], pLost := lost } } ∧
      exec (.pValueStoreDone false) s = .next (soot { s with mgmt := { s.mgmt with
        pSending := rest, pLost := lost ++ [v.key] } } 0x2D01 none (256 * v.index + v.sub) 0))) ∧
  (∀ s : State, (logMillisecond s = s.recov.logMs → exec .logMillisecondEnd s = .next s) ∧
    (logMillisecond s ≠ s.recov.logMs → exec .logMillisecondEnd s = .next (closeMillisecond s))) ∧
  (∀ (s : State) (q : Requester) (v : Byte),
    let k := selected s q 0x2C30 1
    accepts s q 0x2C30 3 [v] → exec (.dumpRelease q v) s =
      .next (accepted s q 0x2C30 3 [v] (setAsh s k { ashAt s k with held := false })))

/-! ### Management (17) -/

/-- CAN FD (R518, R520, R523, R524, R525, R526, R527, R531): NMT acts on the communication alone, the heartbeat carries its state, a
waiting EMCY follows the inhibit time, and transfers are expedited or segmented, take effect at their last byte, and end
by an abort or a timeout without effect. That a second node is refused while a transfer is open is the model's reading
(notes/assumptions/37). -/
def Obligations.CanServicesAreKept : Prop :=
  (∀ (s : State) (node : BitVec 8),
    (s.mgmt.nmt = .bootUp ∨ (node ≠ 0 ∧ node.toNat ≠ s.mgmt.nodeId) →
      exec (.startRemoteNode node) s = .next s ∧ exec (.stopRemoteNode node) s = .next s ∧
      exec (.enterPreOperational node) s = .next s ∧ exec (.resetNode node) s = .next s ∧
      exec (.resetCommunication node) s = .next s) ∧
    (s.mgmt.nmt ≠ .bootUp → (node = 0 ∨ node.toNat = s.mgmt.nodeId) →
      exec (.startRemoteNode node) s = .next { s with mgmt := { s.mgmt with nmt := .operational } } ∧
      exec (.stopRemoteNode node) s = .next { s with mgmt := { s.mgmt with nmt := .stopped, emcy := [] } } ∧
      exec (.enterPreOperational node) s = .next { s with mgmt := { s.mgmt with nmt := .preOperational } } ∧
      (∀ i, i ∈ [Instr.resetNode node, .resetCommunication node] → ∃ t, exec i s = .next t ∧ t.mgmt.nmt = .preOperational ∧
        t.mgmt.nodeId = val t 0x2000 6 ∧ t.mgmt.canX = none ∧ t.mgmt.errors = [] ∧ t.mgmt.emcy = [] ∧
        t.ctxs = s.ctxs ∧ t.work = s.work ∧ t.quartz = s.quartz ∧ t.chim = s.chim ∧ t.ctr = s.ctr))) ∧
  (∀ s : State,
    (s.mgmt.nmt = .bootUp ∨ val s 0x1017 0 = 0 → exec .heartbeatTimer s = .next s) ∧
    (∀ n code, (n, code) ∈ [(Nmt.stopped, (0x04 : Byte)), (.operational, 0x05), (.preOperational, 0x7F)] → s.mgmt.nmt = n →
      val s 0x1017 0 ≠ 0 → exec .heartbeatTimer s = .next (emit s (.can (0x700 + s.mgmt.nodeId) [code]))) ∧
    (s.mgmt.emcy = [] → exec .emcyInhibitEnd s = .next { s with mgmt := { s.mgmt with inhibited := false } }) ∧
    (∀ m rest, s.mgmt.emcy = m :: rest → exec .emcyInhibitEnd s = .next (emit { s with mgmt := { s.mgmt with emcy := rest } }
      (.can (0x080 + s.mgmt.nodeId) (toLe 2 m.code.toNat ++ [m.reg] ++ m.man))))) ∧
  (∀ (s : State) (node : BitVec 7) (index : BitVec 16) (sub : BitVec 8) (env : Env),
    let q := Requester.can node
    let i := index.toNat
    let k := sub.toNat
    let up := fun p => exec (.usdoUpload node index sub p) s
    let down := fun p => exec (.usdoDownload node index sub p env) s
    (heard s q = false → (∀ p, up p = .next s) ∧ (∀ p, down p = .next s) ∧ exec (.usdoAbort node) s = .next s) ∧
    (∀ t, heard s q = true → s.mgmt.canX = some t → t.who ≠ q →
      (∀ p, up p = .next (respond s q i k abState [])) ∧ (∀ p, down p = .next (respond s q i k abState [])) ∧
      exec (.usdoAbort node) s = .next s) ∧
    (heard s q = true → (s.mgmt.canX = none ∨ ∃ t, s.mgmt.canX = some t ∧ t.who = q) →
      up .other = .next (respond s q i k abSpecifier []) ∧ down .other = .next (respond s q i k abSpecifier [])) ∧
    (heard s q = true → s.mgmt.canX = none →
      (∀ room a, serveRead q i k s = .error a → up (.first room) = .next (respond s q i k a [])) ∧
      (∀ room bs u, serveRead q i k s = .ok (bs, u) →
        (bs.length ≤ room → up (.first room) = .next (setXfer (respond u q i k 0 bs) .can none)) ∧
        (room < bs.length → up (.first room) = .next (setXfer (respond u q i k 0 (bs.take room)) .can
          (some { index := i, sub := k, who := q, total := bs.length, data := bs.drop room, upload := true })))) ∧
      (∀ room, up (.next room) = .next (respond s q i k abOrder [])) ∧
      (∀ seg, down (.next seg) = .next (respond s q i k abOrder [])) ∧
      (∀ seg t, isFragment i k = false → serveWrite q i k seg env s = .ok t →
        down (.first seg.length seg) = .next (respond t q i k 0 [])) ∧
      (∀ seg a, isFragment i k = false → serveWrite q i k seg env s = .error a →
        down (.first seg.length seg) = .next (respond s q i k a [])) ∧
      (∀ total seg a, total ≠ seg.length → openAbort s q i k total = some a →
        down (.first total seg) = .next (respond s q i k a []))) ∧
    (∀ t, heard s q = true → s.mgmt.canX = some t → t.who = q →
      (t.upload = true → (∀ room, t.data.length ≤ room → up (.next room) =
        .next (setXfer (respond s q t.index t.sub 0 t.data) .can none)) ∧
        (∀ seg, down (.next seg) = .next (respond s q i k abOrder []))) ∧
      (t.upload = false → isFragment t.index t.sub = false → ∀ seg,
        ((t.data ++ seg).length < t.total → down (.next seg) =
          .next (respond (setXfer s .can (some { t with data := t.data ++ seg })) q t.index t.sub 0 [])) ∧
        (t.total < (t.data ++ seg).length → down (.next seg) = .next (respond (setXfer s .can none) q t.index t.sub abLong [])) ∧
        (∀ u, (t.data ++ seg).length = t.total → serveWrite q t.index t.sub (t.data ++ seg) env (setXfer s .can none) = .ok u →
          down (.next seg) = .next (respond u q t.index t.sub 0 []))) ∧
      exec (.usdoAbort node) s = .next (closeXfer s .can) ∧
      (t.upload = false →
        exec (.transferTimeout q) s = .next (respond (closeXfer s .can) q t.index t.sub abTimeout []) ∧
        exec (.lockWaitTimeout q) s = .next (respond (closeXfer s .can) q t.index t.sub abBusy []))) ∧
    (s.mgmt.canX = none → exec (.transferTimeout q) s = .next s ∧ exec (.usdoAbort node) s = .next s ∧
      exec (.lockWaitTimeout q) s = .next (respond s q 0 0 abBusy []))) ∧
  (∀ s : State, ∃ t, exec .uploadSnapshotTimeout s = .next t ∧ t.mgmt.snapshot = none ∧ t.mgmt.canX = s.mgmt.canX ∧
    t.mgmt.tapX = s.mgmt.tapX ∧ t.objs = s.objs ∧ t.ctxs = s.ctxs)

/-- The mailbox, the TAP, fragments and plain writes (R449, R515, R519, R527, R528, R529, R530, R537, R540, R575): a mailbox request is
served once and a repeat answered again, the TAP shifts the response to the previous request out, a fragment is answered
once it has been applied or refused, and a write to any object has its object's effect or its abort code. -/
def Obligations.MailboxTapAndWritesAreServed : Prop :=
  (∀ (s : State) (f : BitVec 8) (bs : Packet) (env : Env),
    let n := f.toNat
    let u := acceptPkt s n bs
    let p := pktOf bs
    let node := mboxNode p
    let seq := BitVec.ofNat 16 p.arg.toNat
    let q := Requester.mesh node.1 node.2
    edgeAccepts s n 5 bs → ∀ i op e, (i, op, e) ∈ [(Instr.mailboxUpload f bs, 1, { probePs := [], staged := none }),
      (.mailboxDownload f bs env, 2, env), (.mailboxAbort f bs, 3, { probePs := [], staged := none })] →
    (byteAt bs 32).toNat = op →
    (flueDown u = true ∨ awaited u p = true → exec i s = .next u) ∧
    (flueDown u = false → awaited u p = false →
      (∀ x, u.mgmt.served.find? (fun x => x.1 = node && x.2.1 = seq) = some x →
        exec i s = .next (answer u n p 0x85 0 seq.toNat x.2.2)) ∧
      (u.mgmt.served.find? (fun x => x.1 = node && x.2.1 = seq) = none →
        (∀ r t, serveFrame q p.payload (some (n, bs)) e u = (some r, t) → served t = true → exec i s =
          .next (answer { t with mgmt := { t.mgmt with
            served := (t.mgmt.served.filter fun x => x.1 ≠ node) ++ [(node, seq, r)] } } n p 0x85 0 seq.toNat r)) ∧
        (∀ t, serveFrame q p.payload (some (n, bs)) e u = (none, t) → exec i s = .next t)))) ∧
  (∀ (s : State) (q : Requester) (fr : Bytes) (box : Option (Nat × Bytes)) (env : Env),
    let op := (byteAt fr 0).toNat
    let i := leAt fr 2 2
    let k := (byteAt fr 4).toNat
    let off := leAt fr 12 4
    let total := leAt fr 8 4
    let path := pathOf q
    (op = 0 ∨ 3 < op → serveFrame q fr box env s = (some (mboxResponse op i k 0 abSpecifier []), s)) ∧
    ((byteAt fr 1).toNat ≤ 1 → zeroAt fr 5 3 = true →
      (op = 1 → off = 0 → xferOf s path = none →
        (∀ a, serveRead q i k (setSnap s path none) = .error a →
          serveFrame q fr box env s = (some (mboxResponse 1 i k 0 a []), setSnap s path none)) ∧
        (∀ bs u, serveRead q i k (setSnap s path none) = .ok (bs, u) → bs.length ≤ 1008 → serveFrame q fr box env s =
          (some (mboxResponse 1 i k bs.length 0 (bs.take 1008)), setSnap u path (some (i, k, bs))))) ∧
      (∀ bs, op = 1 → 0 < off → off ≤ bs.length → snapOf s path = some (i, k, bs) → off + 1008 < bs.length →
        serveFrame q fr box env s = (some (mboxResponse 1 i k bs.length 0 (slice bs off 1008)), s)) ∧
      (op = 2 → off ≠ 0 → xferOf s path = none →
        serveFrame q fr box env s = (some (mboxResponse 2 i k 0 abOrder []), s)) ∧
      (∀ u, op = 2 → off = 0 → xferOf s path = none → isFragment i k = false → total = (fr.drop 16).length →
        serveWrite q i k (fr.drop 16) env s = .ok u → serveFrame q fr box env s = (some (mboxResponse 2 i k 0 0 []), u)) ∧
      (∀ a, op = 2 → off = 0 → xferOf s path = none → isFragment i k = false → total = (fr.drop 16).length →
        serveWrite q i k (fr.drop 16) env s = .error a → serveFrame q fr box env s = (some (mboxResponse 2 i k 0 a []), s)) ∧
      (∀ t, op = 2 → xferOf s path = some t → t.upload = false → t.who = q → t.index = i → t.sub = k → off ≠ t.data.length →
        serveFrame q fr box env s = (some (mboxResponse 2 i k 0 abOrder []), closeXfer s path)) ∧
      (op = 3 → xferOf s path = none → serveFrame q fr box env s = (some (mboxResponse 3 i k 0 0 []), s)))) ∧
  (∀ s : State,
    exec .idcode s = .next (setTap (emit s (.tdo 32 (toLe 4 0x1E0814E3))) 0x01) ∧
    (∀ code : BitVec 8, (code ≠ 0x01 → code ≠ 0x20 → exec (.bypass code) s = .next (setTap (emit s (.tdo 1 [0])) code)) ∧
      (code = 0x01 ∨ code = 0x20 → exec (.bypass code) s = .next s)) ∧
    (∀ low, (low < 100 → exec (.tapReset low) s = .next s) ∧ (100 ≤ low → exec (.tapReset low) s = .next (setTap s 0x01))) ∧
    (∀ fr env r,
      let u := setTap (emit s (.tdo 8192 (tapFrame s.mgmt.tapLast))) 0x20
      let frame := if byteAt fr 0 = 2 then fr.take (16 + min 1008 (leAt fr 8 4 - leAt fr 12 4)) else fr
      serveFrame .tap frame none env u = r →
        exec (.tapMbox fr env) s = .next { r.2 with mgmt := { r.2.mgmt with tapLast := r.1.getD [] } })) ∧
  (∀ (s : State) (q : Requester) (data : Bytes),
    let g := selected s q 0x2010 1
    let t := tabSet 0 s.mgmt.grants g (BitVec.ofNat 128 (leNat data))
    accepts s q 0x2010 0x11 data → data.length = 16 →
    (grantOk (leNat data) = false → exec (.grantWrite q data) s = .next (refusedWith s q 0x2010 0x11 abRange)) ∧
    (grantOk (leNat data) = true → q ≠ .tap → blockGrant t = false →
      exec (.grantWrite q data) s = .next (refusedWith s q 0x2010 0x11 abState)) ∧
    (grantOk (leNat data) = true → (q = .tap ∨ blockGrant t = true) → exec (.grantWrite q data) s =
      .next (accepted s q 0x2010 0x11 data { s with
        mgmt := { s.mgmt with grants := t },
        selects := s.selects.filter fun x => x.1 / 2 ^ 24 ≠ 3 + g }))) ∧
  (∀ (s : State) (env : Env),
    (s.mgmt.staged = none → exec (.fragmentVerified env) s = .next s) ∧
    (∀ g, s.mgmt.staged = some g →
      let u := put { s with mgmt := { s.mgmt with staged := none } } 0x2020 4 0
      (∀ t, applyFragment g env u = .ok t → exec (.fragmentVerified env) s = .next (answerFragment g 0 t)) ∧
      (∀ a, applyFragment g env u = .error a → exec (.fragmentVerified env) s = .next (answerFragment g a u)))) ∧
  (∀ (s : State) (q : Requester) (index : BitVec 16) (sub : BitVec 8) (data : Bytes) (env : Env),
    let i := index.toNat
    let k := sub.toNat
    (heard s q = false → exec (.objectWrite q index sub data env) s = .next s) ∧
    (heard s q = true → (isKill i k = false ∨ data.length ≠ 1 ∨ 1 < leNat data) →
      (∀ a, data ≠ [] → writeAbort s q i k data = some a → exec (.objectWrite q index sub data env) s =
        .next (refusedWith s q i k a)) ∧
      (∀ t, accepts s q i k data → applyWrite q i k data env s = .ok t → exec (.objectWrite q index sub data env) s =
        .next (accepted s q i k data t)) ∧
      (∀ a, accepts s q i k data → applyWrite q i k data env s = .error a → exec (.objectWrite q index sub data env) s =
        .next (refusedWith s q i k a))))
end
end

