-- ==== Sys2Proof/Laws/Table.lean ====
section
/-! SUPPORT. What a sparse table reads as after a write, the canonical form that every write keeps, and the same for a memory. -/

namespace Sys2Proof.Machine

variable {α : Type}

theorem tabGet_tabPut (d : α) (t : Tab α) (k : Nat) (v : α) (j : Nat) :
    tabGet d (tabPut t k v) j = if j = k then v else tabGet d t j := by
  induction t with
  | nil => simp [tabPut, tabGet]
  | cons x t ih =>
    simp only [tabPut]
    split
    · simp [tabGet]
    · split
      · simp only [tabGet]; split <;> simp_all
      · simp only [tabGet, ih]; split <;> split <;> simp_all

theorem tabGet_tabErase (d : α) (t : Tab α) (k j : Nat) :
    tabGet d (tabErase t k) j = if j = k then d else tabGet d t j := by
  induction t with
  | nil => simp [tabErase, tabGet]
  | cons x t ih =>
    simp only [tabErase]
    split
    · rw [ih]; simp only [tabGet]; split <;> simp_all
    · simp only [tabGet, ih]; split <;> split <;> simp_all

/-- A read after a write: the value written at its key, and what stood there at every other key. -/
@[simp] theorem tabGet_tabSet [DecidableEq α] (d : α) (t : Tab α) (k : Nat) (v : α) (j : Nat) :
    tabGet d (tabSet d t k v) j = if j = k then v else tabGet d t j := by
  unfold tabSet
  split
  · rename_i h; rw [tabGet_tabErase, h]
  · rw [tabGet_tabPut]

@[simp] theorem tabGet_nil (d : α) (k : Nat) : tabGet d ([] : Tab α) k = d := rfl

variable [DecidableEq α]

theorem tabWf_weaken (d : α) (t : Tab α) (a b : Nat) (h : a ≤ b) (w : tabWf d (some b) t = true) : tabWf d (some a) t = true := by
  cases t with
  | nil => rfl
  | cons x t =>
    simp only [tabWf, Bool.and_eq_true, decide_eq_true_eq] at *
    exact ⟨⟨Nat.lt_of_le_of_lt h w.1.1, w.1.2⟩, w.2⟩

theorem tabWf_none (d : α) (t : Tab α) (a : Nat) (w : tabWf d (some a) t = true) : tabWf d none t = true := by
  cases t with
  | nil => rfl
  | cons x t => simp only [tabWf, Bool.and_eq_true] at *; exact ⟨⟨trivial, w.1.2⟩, w.2⟩

theorem tabErase_wf (d : α) (lo : Option Nat) (t : Tab α) (k : Nat) (w : tabWf d lo t = true) : tabWf d lo (tabErase t k) = true := by
  induction t generalizing lo with
  | nil => rfl
  | cons x t ih =>
    simp only [tabWf, Bool.and_eq_true] at w
    simp only [tabErase]
    split
    · have := ih (some x.1) w.2
      cases lo with
      | none => exact tabWf_none d _ _ this
      | some l =>
        have hl : l < x.1 := by simpa using w.1.1
        exact tabWf_weaken d _ _ _ (Nat.le_of_lt hl) this
    · simp only [tabWf, Bool.and_eq_true]
      exact ⟨w.1, ih _ w.2⟩

theorem tabWf_cons (d : α) (lo : Option Nat) (k : Nat) (v : α) (t : Tab α) :
    tabWf d lo ((k, v) :: t) = true ↔ (∀ l, lo = some l → l < k) ∧ v ≠ d ∧ tabWf d (some k) t = true := by
  cases lo <;> simp [tabWf, and_assoc]

theorem tabPut_wf (d : α) (lo : Option Nat) (t : Tab α) (k : Nat) (v : α) (hv : v ≠ d) (hk : ∀ l, lo = some l → l < k)
    (w : tabWf d lo t = true) : tabWf d lo (tabPut t k v) = true := by
  induction t generalizing lo with
  | nil => exact (tabWf_cons d lo k v []).2 ⟨hk, hv, rfl⟩
  | cons x t ih =>
    obtain ⟨h1, h2, h3⟩ := (tabWf_cons d lo x.1 x.2 t).1 w
    simp only [tabPut]
    split
    · rename_i h
      exact (tabWf_cons ..).2 ⟨hk, hv, (tabWf_cons ..).2 ⟨fun l e => by cases e; exact h, h2, h3⟩⟩
    · split
      · rename_i h; subst h; exact (tabWf_cons ..).2 ⟨hk, hv, h3⟩
      · exact (tabWf_cons ..).2 ⟨h1, h2, ih (some x.1) (fun l e => by cases e; omega) h3⟩

/-- A write keeps the canonical form. -/
theorem tabSet_wf (d : α) (t : Tab α) (k : Nat) (v : α) (w : tabWf d none t = true) : tabWf d none (tabSet d t k v) = true := by
  unfold tabSet
  split
  · exact tabErase_wf d none t k w
  · rename_i h; exact tabPut_wf d none t k v h (fun _ hl => by cases hl) w

/-! ### Memories -/

/-- Every write of a byte keeps a memory's canonical form. -/
theorem memWrite_wf (m : List Host.Cell) (a : Nat) (b : Byte) (w : Memory.wf m = true) : Memory.wf (memWrite m a b) = true :=
  tabSet_wf _ m a b w

/-- Every write of a byte string keeps it. -/
theorem memWriteN_wf (bs : Bytes) (m : List Host.Cell) (a : Nat) (w : Memory.wf m = true) : Memory.wf (memWriteN m a bs) = true := by
  induction bs generalizing m a with
  | nil => exact w
  | cons b bs ih => exact ih _ _ (memWrite_wf m a b w)

/-- A byte after the write of one: the one written, and every other byte as before. -/
@[simp] theorem memRead_memWrite (m : List Host.Cell) (a : Nat) (b : Byte) (j : Nat) :
    memRead (memWrite m a b) j = if j = a then b else memRead m j := tabGet_tabSet _ m a b j

/-- A byte outside those written is as before. -/
theorem memRead_memWriteN_ne (bs : Bytes) (m : List Host.Cell) (a j : Nat) (h : j < a ∨ a + bs.length ≤ j) :
    memRead (memWriteN m a bs) j = memRead m j := by
  induction bs generalizing m a with
  | nil => rfl
  | cons b bs ih =>
    simp only [List.length_cons] at h
    rw [memWriteN, ih _ _ (by omega), memRead_memWrite, if_neg (by omega)]

/-- A byte among those written is the one written. -/
theorem memRead_memWriteN (bs : Bytes) (m : List Host.Cell) (a i : Nat) (h : i < bs.length) :
    memRead (memWriteN m a bs) (a + i) = bs[i] := by
  induction bs generalizing m a i with
  | nil => simp at h
  | cons b bs ih =>
    cases i with
    | zero => rw [memWriteN, memRead_memWriteN_ne _ _ _ _ (by omega)]; simp
    | succ i =>
      have := ih (memWrite m a b) (a + 1) i (by simpa using h)
      rw [memWriteN, show a + (i + 1) = a + 1 + i by omega, this]; simp

end Sys2Proof.Machine
end

