-- ==== Sys2Proof/Laws/State.lean ====
section
/-! SUPPORT. What each write of a part of the state leaves as it was (one lemma for every other part, true by unfolding), and
what the part written reads as. -/

namespace Sys2Proof.Machine

/-! ### Every other part stays -/

@[simp] theorem setReg_pending (s : State) (i sub d v : Nat) : (setReg s i sub d v).pending = s.pending := rfl
@[simp] theorem setReg_sys (s : State) (i sub d v : Nat) : (setReg s i sub d v).sys = s.sys := rfl
@[simp] theorem setReg_selects (s : State) (i sub d v : Nat) : (setReg s i sub d v).selects = s.selects := rfl
@[simp] theorem setReg_quartz (s : State) (i sub d v : Nat) : (setReg s i sub d v).quartz = s.quartz := rfl
@[simp] theorem setReg_net (s : State) (i sub d v : Nat) : (setReg s i sub d v).net = s.net := rfl
@[simp] theorem setReg_work (s : State) (i sub d v : Nat) : (setReg s i sub d v).work = s.work := rfl
@[simp] theorem setReg_ctxs (s : State) (i sub d v : Nat) : (setReg s i sub d v).ctxs = s.ctxs := rfl
@[simp] theorem setReg_store (s : State) (i sub d v : Nat) : (setReg s i sub d v).store = s.store := rfl
@[simp] theorem setReg_grid (s : State) (i sub d v : Nat) : (setReg s i sub d v).grid = s.grid := rfl
@[simp] theorem setReg_chim (s : State) (i sub d v : Nat) : (setReg s i sub d v).chim = s.chim := rfl
@[simp] theorem setReg_flue (s : State) (i sub d v : Nat) : (setReg s i sub d v).flue = s.flue := rfl
@[simp] theorem setReg_ctr (s : State) (i sub d v : Nat) : (setReg s i sub d v).ctr = s.ctr := rfl
@[simp] theorem setReg_mgmt (s : State) (i sub d v : Nat) : (setReg s i sub d v).mgmt = s.mgmt := rfl
@[simp] theorem setReg_power (s : State) (i sub d v : Nat) : (setReg s i sub d v).power = s.power := rfl
@[simp] theorem setReg_recov (s : State) (i sub d v : Nat) : (setReg s i sub d v).recov = s.recov := rfl
@[simp] theorem put_pending (s : State) (i sub v : Nat) : (put s i sub v).pending = s.pending := rfl
@[simp] theorem put_sys (s : State) (i sub v : Nat) : (put s i sub v).sys = s.sys := rfl
@[simp] theorem put_selects (s : State) (i sub v : Nat) : (put s i sub v).selects = s.selects := rfl
@[simp] theorem put_quartz (s : State) (i sub v : Nat) : (put s i sub v).quartz = s.quartz := rfl
@[simp] theorem put_net (s : State) (i sub v : Nat) : (put s i sub v).net = s.net := rfl
@[simp] theorem put_work (s : State) (i sub v : Nat) : (put s i sub v).work = s.work := rfl
@[simp] theorem put_ctxs (s : State) (i sub v : Nat) : (put s i sub v).ctxs = s.ctxs := rfl
@[simp] theorem put_store (s : State) (i sub v : Nat) : (put s i sub v).store = s.store := rfl
@[simp] theorem put_grid (s : State) (i sub v : Nat) : (put s i sub v).grid = s.grid := rfl
@[simp] theorem put_chim (s : State) (i sub v : Nat) : (put s i sub v).chim = s.chim := rfl
@[simp] theorem put_flue (s : State) (i sub v : Nat) : (put s i sub v).flue = s.flue := rfl
@[simp] theorem put_ctr (s : State) (i sub v : Nat) : (put s i sub v).ctr = s.ctr := rfl
@[simp] theorem put_mgmt (s : State) (i sub v : Nat) : (put s i sub v).mgmt = s.mgmt := rfl
@[simp] theorem put_power (s : State) (i sub v : Nat) : (put s i sub v).power = s.power := rfl
@[simp] theorem put_recov (s : State) (i sub v : Nat) : (put s i sub v).recov = s.recov := rfl
@[simp] theorem bumpBy_pending (w : Nat) (s : State) (i sub n : Nat) : (bumpBy w s i sub n).pending = s.pending := rfl
@[simp] theorem bumpBy_sys (w : Nat) (s : State) (i sub n : Nat) : (bumpBy w s i sub n).sys = s.sys := rfl
@[simp] theorem bumpBy_selects (w : Nat) (s : State) (i sub n : Nat) : (bumpBy w s i sub n).selects = s.selects := rfl
@[simp] theorem bumpBy_quartz (w : Nat) (s : State) (i sub n : Nat) : (bumpBy w s i sub n).quartz = s.quartz := rfl
@[simp] theorem bumpBy_net (w : Nat) (s : State) (i sub n : Nat) : (bumpBy w s i sub n).net = s.net := rfl
@[simp] theorem bumpBy_work (w : Nat) (s : State) (i sub n : Nat) : (bumpBy w s i sub n).work = s.work := rfl
@[simp] theorem bumpBy_ctxs (w : Nat) (s : State) (i sub n : Nat) : (bumpBy w s i sub n).ctxs = s.ctxs := rfl
@[simp] theorem bumpBy_store (w : Nat) (s : State) (i sub n : Nat) : (bumpBy w s i sub n).store = s.store := rfl
@[simp] theorem bumpBy_grid (w : Nat) (s : State) (i sub n : Nat) : (bumpBy w s i sub n).grid = s.grid := rfl
@[simp] theorem bumpBy_chim (w : Nat) (s : State) (i sub n : Nat) : (bumpBy w s i sub n).chim = s.chim := rfl
@[simp] theorem bumpBy_flue (w : Nat) (s : State) (i sub n : Nat) : (bumpBy w s i sub n).flue = s.flue := rfl
@[simp] theorem bumpBy_ctr (w : Nat) (s : State) (i sub n : Nat) : (bumpBy w s i sub n).ctr = s.ctr := rfl
@[simp] theorem bumpBy_mgmt (w : Nat) (s : State) (i sub n : Nat) : (bumpBy w s i sub n).mgmt = s.mgmt := rfl
@[simp] theorem bumpBy_power (w : Nat) (s : State) (i sub n : Nat) : (bumpBy w s i sub n).power = s.power := rfl
@[simp] theorem bumpBy_recov (w : Nat) (s : State) (i sub n : Nat) : (bumpBy w s i sub n).recov = s.recov := rfl
@[simp] theorem bump_pending (s : State) (i sub : Nat) : (bump s i sub).pending = s.pending := rfl
@[simp] theorem bump_sys (s : State) (i sub : Nat) : (bump s i sub).sys = s.sys := rfl
@[simp] theorem bump_selects (s : State) (i sub : Nat) : (bump s i sub).selects = s.selects := rfl
@[simp] theorem bump_quartz (s : State) (i sub : Nat) : (bump s i sub).quartz = s.quartz := rfl
@[simp] theorem bump_net (s : State) (i sub : Nat) : (bump s i sub).net = s.net := rfl
@[simp] theorem bump_work (s : State) (i sub : Nat) : (bump s i sub).work = s.work := rfl
@[simp] theorem bump_ctxs (s : State) (i sub : Nat) : (bump s i sub).ctxs = s.ctxs := rfl
@[simp] theorem bump_store (s : State) (i sub : Nat) : (bump s i sub).store = s.store := rfl
@[simp] theorem bump_grid (s : State) (i sub : Nat) : (bump s i sub).grid = s.grid := rfl
@[simp] theorem bump_chim (s : State) (i sub : Nat) : (bump s i sub).chim = s.chim := rfl
@[simp] theorem bump_flue (s : State) (i sub : Nat) : (bump s i sub).flue = s.flue := rfl
@[simp] theorem bump_ctr (s : State) (i sub : Nat) : (bump s i sub).ctr = s.ctr := rfl
@[simp] theorem bump_mgmt (s : State) (i sub : Nat) : (bump s i sub).mgmt = s.mgmt := rfl
@[simp] theorem bump_power (s : State) (i sub : Nat) : (bump s i sub).power = s.power := rfl
@[simp] theorem bump_recov (s : State) (i sub : Nat) : (bump s i sub).recov = s.recov := rfl
@[simp] theorem bump32_pending (s : State) (i sub : Nat) : (bump32 s i sub).pending = s.pending := rfl
@[simp] theorem bump32_sys (s : State) (i sub : Nat) : (bump32 s i sub).sys = s.sys := rfl
@[simp] theorem bump32_selects (s : State) (i sub : Nat) : (bump32 s i sub).selects = s.selects := rfl
@[simp] theorem bump32_quartz (s : State) (i sub : Nat) : (bump32 s i sub).quartz = s.quartz := rfl
@[simp] theorem bump32_net (s : State) (i sub : Nat) : (bump32 s i sub).net = s.net := rfl
@[simp] theorem bump32_work (s : State) (i sub : Nat) : (bump32 s i sub).work = s.work := rfl
@[simp] theorem bump32_ctxs (s : State) (i sub : Nat) : (bump32 s i sub).ctxs = s.ctxs := rfl
@[simp] theorem bump32_store (s : State) (i sub : Nat) : (bump32 s i sub).store = s.store := rfl
@[simp] theorem bump32_grid (s : State) (i sub : Nat) : (bump32 s i sub).grid = s.grid := rfl
@[simp] theorem bump32_chim (s : State) (i sub : Nat) : (bump32 s i sub).chim = s.chim := rfl
@[simp] theorem bump32_flue (s : State) (i sub : Nat) : (bump32 s i sub).flue = s.flue := rfl
@[simp] theorem bump32_ctr (s : State) (i sub : Nat) : (bump32 s i sub).ctr = s.ctr := rfl
@[simp] theorem bump32_mgmt (s : State) (i sub : Nat) : (bump32 s i sub).mgmt = s.mgmt := rfl
@[simp] theorem bump32_power (s : State) (i sub : Nat) : (bump32 s i sub).power = s.power := rfl
@[simp] theorem bump32_recov (s : State) (i sub : Nat) : (bump32 s i sub).recov = s.recov := rfl
@[simp] theorem setCtx_pending (s : State) (c : Nat) (x : Ctx) : (setCtx s c x).pending = s.pending := rfl
@[simp] theorem setCtx_sys (s : State) (c : Nat) (x : Ctx) : (setCtx s c x).sys = s.sys := rfl
@[simp] theorem setCtx_objs (s : State) (c : Nat) (x : Ctx) : (setCtx s c x).objs = s.objs := rfl
@[simp] theorem setCtx_selects (s : State) (c : Nat) (x : Ctx) : (setCtx s c x).selects = s.selects := rfl
@[simp] theorem setCtx_quartz (s : State) (c : Nat) (x : Ctx) : (setCtx s c x).quartz = s.quartz := rfl
@[simp] theorem setCtx_net (s : State) (c : Nat) (x : Ctx) : (setCtx s c x).net = s.net := rfl
@[simp] theorem setCtx_work (s : State) (c : Nat) (x : Ctx) : (setCtx s c x).work = s.work := rfl
@[simp] theorem setCtx_store (s : State) (c : Nat) (x : Ctx) : (setCtx s c x).store = s.store := rfl
@[simp] theorem setCtx_grid (s : State) (c : Nat) (x : Ctx) : (setCtx s c x).grid = s.grid := rfl
@[simp] theorem setCtx_chim (s : State) (c : Nat) (x : Ctx) : (setCtx s c x).chim = s.chim := rfl
@[simp] theorem setCtx_flue (s : State) (c : Nat) (x : Ctx) : (setCtx s c x).flue = s.flue := rfl
@[simp] theorem setCtx_ctr (s : State) (c : Nat) (x : Ctx) : (setCtx s c x).ctr = s.ctr := rfl
@[simp] theorem setCtx_mgmt (s : State) (c : Nat) (x : Ctx) : (setCtx s c x).mgmt = s.mgmt := rfl
@[simp] theorem setCtx_power (s : State) (c : Nat) (x : Ctx) : (setCtx s c x).power = s.power := rfl
@[simp] theorem setCtx_recov (s : State) (c : Nat) (x : Ctx) : (setCtx s c x).recov = s.recov := rfl
@[simp] theorem setCtxState_pending (s : State) (c : Nat) (t : CtxState) : (setCtxState s c t).pending = s.pending := rfl
@[simp] theorem setCtxState_sys (s : State) (c : Nat) (t : CtxState) : (setCtxState s c t).sys = s.sys := rfl
@[simp] theorem setCtxState_selects (s : State) (c : Nat) (t : CtxState) : (setCtxState s c t).selects = s.selects := rfl
@[simp] theorem setCtxState_quartz (s : State) (c : Nat) (t : CtxState) : (setCtxState s c t).quartz = s.quartz := rfl
@[simp] theorem setCtxState_net (s : State) (c : Nat) (t : CtxState) : (setCtxState s c t).net = s.net := rfl
@[simp] theorem setCtxState_work (s : State) (c : Nat) (t : CtxState) : (setCtxState s c t).work = s.work := rfl
@[simp] theorem setCtxState_ctxs (s : State) (c : Nat) (t : CtxState) : (setCtxState s c t).ctxs = s.ctxs := rfl
@[simp] theorem setCtxState_store (s : State) (c : Nat) (t : CtxState) : (setCtxState s c t).store = s.store := rfl
@[simp] theorem setCtxState_grid (s : State) (c : Nat) (t : CtxState) : (setCtxState s c t).grid = s.grid := rfl
@[simp] theorem setCtxState_chim (s : State) (c : Nat) (t : CtxState) : (setCtxState s c t).chim = s.chim := rfl
@[simp] theorem setCtxState_flue (s : State) (c : Nat) (t : CtxState) : (setCtxState s c t).flue = s.flue := rfl
@[simp] theorem setCtxState_ctr (s : State) (c : Nat) (t : CtxState) : (setCtxState s c t).ctr = s.ctr := rfl
@[simp] theorem setCtxState_mgmt (s : State) (c : Nat) (t : CtxState) : (setCtxState s c t).mgmt = s.mgmt := rfl
@[simp] theorem setCtxState_power (s : State) (c : Nat) (t : CtxState) : (setCtxState s c t).power = s.power := rfl
@[simp] theorem setCtxState_recov (s : State) (c : Nat) (t : CtxState) : (setCtxState s c t).recov = s.recov := rfl
@[simp] theorem setBase_pending (s : State) (n : Nat) (b : Base) : (setBase s n b).pending = s.pending := rfl
@[simp] theorem setBase_sys (s : State) (n : Nat) (b : Base) : (setBase s n b).sys = s.sys := rfl
@[simp] theorem setBase_objs (s : State) (n : Nat) (b : Base) : (setBase s n b).objs = s.objs := rfl
@[simp] theorem setBase_selects (s : State) (n : Nat) (b : Base) : (setBase s n b).selects = s.selects := rfl
@[simp] theorem setBase_net (s : State) (n : Nat) (b : Base) : (setBase s n b).net = s.net := rfl
@[simp] theorem setBase_work (s : State) (n : Nat) (b : Base) : (setBase s n b).work = s.work := rfl
@[simp] theorem setBase_ctxs (s : State) (n : Nat) (b : Base) : (setBase s n b).ctxs = s.ctxs := rfl
@[simp] theorem setBase_store (s : State) (n : Nat) (b : Base) : (setBase s n b).store = s.store := rfl
@[simp] theorem setBase_grid (s : State) (n : Nat) (b : Base) : (setBase s n b).grid = s.grid := rfl
@[simp] theorem setBase_chim (s : State) (n : Nat) (b : Base) : (setBase s n b).chim = s.chim := rfl
@[simp] theorem setBase_flue (s : State) (n : Nat) (b : Base) : (setBase s n b).flue = s.flue := rfl
@[simp] theorem setBase_ctr (s : State) (n : Nat) (b : Base) : (setBase s n b).ctr = s.ctr := rfl
@[simp] theorem setBase_mgmt (s : State) (n : Nat) (b : Base) : (setBase s n b).mgmt = s.mgmt := rfl
@[simp] theorem setBase_power (s : State) (n : Nat) (b : Base) : (setBase s n b).power = s.power := rfl
@[simp] theorem setBase_recov (s : State) (n : Nat) (b : Base) : (setBase s n b).recov = s.recov := rfl
@[simp] theorem emit_pending (s : State) (o : Output) : (emit s o).pending = s.pending := rfl
@[simp] theorem emit_objs (s : State) (o : Output) : (emit s o).objs = s.objs := rfl
@[simp] theorem emit_selects (s : State) (o : Output) : (emit s o).selects = s.selects := rfl
@[simp] theorem emit_quartz (s : State) (o : Output) : (emit s o).quartz = s.quartz := rfl
@[simp] theorem emit_net (s : State) (o : Output) : (emit s o).net = s.net := rfl
@[simp] theorem emit_work (s : State) (o : Output) : (emit s o).work = s.work := rfl
@[simp] theorem emit_ctxs (s : State) (o : Output) : (emit s o).ctxs = s.ctxs := rfl
@[simp] theorem emit_store (s : State) (o : Output) : (emit s o).store = s.store := rfl
@[simp] theorem emit_grid (s : State) (o : Output) : (emit s o).grid = s.grid := rfl
@[simp] theorem emit_chim (s : State) (o : Output) : (emit s o).chim = s.chim := rfl
@[simp] theorem emit_flue (s : State) (o : Output) : (emit s o).flue = s.flue := rfl
@[simp] theorem emit_ctr (s : State) (o : Output) : (emit s o).ctr = s.ctr := rfl
@[simp] theorem emit_mgmt (s : State) (o : Output) : (emit s o).mgmt = s.mgmt := rfl
@[simp] theorem emit_power (s : State) (o : Output) : (emit s o).power = s.power := rfl
@[simp] theorem emit_recov (s : State) (o : Output) : (emit s o).recov = s.recov := rfl
@[simp] theorem respond_pending (s : State) (q : Requester) (i sub : Nat) (abort : BitVec 32) (data : Bytes) : (respond s q i sub abort data).pending = s.pending := rfl
@[simp] theorem respond_objs (s : State) (q : Requester) (i sub : Nat) (abort : BitVec 32) (data : Bytes) : (respond s q i sub abort data).objs = s.objs := rfl
@[simp] theorem respond_selects (s : State) (q : Requester) (i sub : Nat) (abort : BitVec 32) (data : Bytes) : (respond s q i sub abort data).selects = s.selects := rfl
@[simp] theorem respond_quartz (s : State) (q : Requester) (i sub : Nat) (abort : BitVec 32) (data : Bytes) : (respond s q i sub abort data).quartz = s.quartz := rfl
@[simp] theorem respond_net (s : State) (q : Requester) (i sub : Nat) (abort : BitVec 32) (data : Bytes) : (respond s q i sub abort data).net = s.net := rfl
@[simp] theorem respond_work (s : State) (q : Requester) (i sub : Nat) (abort : BitVec 32) (data : Bytes) : (respond s q i sub abort data).work = s.work := rfl
@[simp] theorem respond_ctxs (s : State) (q : Requester) (i sub : Nat) (abort : BitVec 32) (data : Bytes) : (respond s q i sub abort data).ctxs = s.ctxs := rfl
@[simp] theorem respond_store (s : State) (q : Requester) (i sub : Nat) (abort : BitVec 32) (data : Bytes) : (respond s q i sub abort data).store = s.store := rfl
@[simp] theorem respond_grid (s : State) (q : Requester) (i sub : Nat) (abort : BitVec 32) (data : Bytes) : (respond s q i sub abort data).grid = s.grid := rfl
@[simp] theorem respond_chim (s : State) (q : Requester) (i sub : Nat) (abort : BitVec 32) (data : Bytes) : (respond s q i sub abort data).chim = s.chim := rfl
@[simp] theorem respond_flue (s : State) (q : Requester) (i sub : Nat) (abort : BitVec 32) (data : Bytes) : (respond s q i sub abort data).flue = s.flue := rfl
@[simp] theorem respond_ctr (s : State) (q : Requester) (i sub : Nat) (abort : BitVec 32) (data : Bytes) : (respond s q i sub abort data).ctr = s.ctr := rfl
@[simp] theorem respond_mgmt (s : State) (q : Requester) (i sub : Nat) (abort : BitVec 32) (data : Bytes) : (respond s q i sub abort data).mgmt = s.mgmt := rfl
@[simp] theorem respond_power (s : State) (q : Requester) (i sub : Nat) (abort : BitVec 32) (data : Bytes) : (respond s q i sub abort data).power = s.power := rfl
@[simp] theorem respond_recov (s : State) (q : Requester) (i sub : Nat) (abort : BitVec 32) (data : Bytes) : (respond s q i sub abort data).recov = s.recov := rfl
@[simp] theorem sootPut_pending (s : State) (ev : Nat) (tag : Option (BitVec 14)) (a b : Nat) : (sootPut s ev tag a b).pending = s.pending := rfl
@[simp] theorem sootPut_sys (s : State) (ev : Nat) (tag : Option (BitVec 14)) (a b : Nat) : (sootPut s ev tag a b).sys = s.sys := rfl
@[simp] theorem sootPut_selects (s : State) (ev : Nat) (tag : Option (BitVec 14)) (a b : Nat) : (sootPut s ev tag a b).selects = s.selects := rfl
@[simp] theorem sootPut_quartz (s : State) (ev : Nat) (tag : Option (BitVec 14)) (a b : Nat) : (sootPut s ev tag a b).quartz = s.quartz := rfl
@[simp] theorem sootPut_net (s : State) (ev : Nat) (tag : Option (BitVec 14)) (a b : Nat) : (sootPut s ev tag a b).net = s.net := rfl
@[simp] theorem sootPut_work (s : State) (ev : Nat) (tag : Option (BitVec 14)) (a b : Nat) : (sootPut s ev tag a b).work = s.work := rfl
@[simp] theorem sootPut_ctxs (s : State) (ev : Nat) (tag : Option (BitVec 14)) (a b : Nat) : (sootPut s ev tag a b).ctxs = s.ctxs := rfl
@[simp] theorem sootPut_store (s : State) (ev : Nat) (tag : Option (BitVec 14)) (a b : Nat) : (sootPut s ev tag a b).store = s.store := rfl
@[simp] theorem sootPut_grid (s : State) (ev : Nat) (tag : Option (BitVec 14)) (a b : Nat) : (sootPut s ev tag a b).grid = s.grid := rfl
@[simp] theorem sootPut_chim (s : State) (ev : Nat) (tag : Option (BitVec 14)) (a b : Nat) : (sootPut s ev tag a b).chim = s.chim := rfl
@[simp] theorem sootPut_flue (s : State) (ev : Nat) (tag : Option (BitVec 14)) (a b : Nat) : (sootPut s ev tag a b).flue = s.flue := rfl
@[simp] theorem sootPut_ctr (s : State) (ev : Nat) (tag : Option (BitVec 14)) (a b : Nat) : (sootPut s ev tag a b).ctr = s.ctr := rfl
@[simp] theorem sootPut_mgmt (s : State) (ev : Nat) (tag : Option (BitVec 14)) (a b : Nat) : (sootPut s ev tag a b).mgmt = s.mgmt := rfl
@[simp] theorem sootPut_power (s : State) (ev : Nat) (tag : Option (BitVec 14)) (a b : Nat) : (sootPut s ev tag a b).power = s.power := rfl
@[simp] theorem setDom_pending (s : State) (d : Nat) (x : Domain) : (setDom s d x).pending = s.pending := rfl
@[simp] theorem setDom_sys (s : State) (d : Nat) (x : Domain) : (setDom s d x).sys = s.sys := rfl
@[simp] theorem setDom_objs (s : State) (d : Nat) (x : Domain) : (setDom s d x).objs = s.objs := rfl
@[simp] theorem setDom_selects (s : State) (d : Nat) (x : Domain) : (setDom s d x).selects = s.selects := rfl
@[simp] theorem setDom_quartz (s : State) (d : Nat) (x : Domain) : (setDom s d x).quartz = s.quartz := rfl
@[simp] theorem setDom_net (s : State) (d : Nat) (x : Domain) : (setDom s d x).net = s.net := rfl
@[simp] theorem setDom_work (s : State) (d : Nat) (x : Domain) : (setDom s d x).work = s.work := rfl
@[simp] theorem setDom_ctxs (s : State) (d : Nat) (x : Domain) : (setDom s d x).ctxs = s.ctxs := rfl
@[simp] theorem setDom_store (s : State) (d : Nat) (x : Domain) : (setDom s d x).store = s.store := rfl
@[simp] theorem setDom_grid (s : State) (d : Nat) (x : Domain) : (setDom s d x).grid = s.grid := rfl
@[simp] theorem setDom_chim (s : State) (d : Nat) (x : Domain) : (setDom s d x).chim = s.chim := rfl
@[simp] theorem setDom_flue (s : State) (d : Nat) (x : Domain) : (setDom s d x).flue = s.flue := rfl
@[simp] theorem setDom_ctr (s : State) (d : Nat) (x : Domain) : (setDom s d x).ctr = s.ctr := rfl
@[simp] theorem setDom_mgmt (s : State) (d : Nat) (x : Domain) : (setDom s d x).mgmt = s.mgmt := rfl
@[simp] theorem setDom_recov (s : State) (d : Nat) (x : Domain) : (setDom s d x).recov = s.recov := rfl
@[simp] theorem setSelected_pending (s : State) (q : Requester) (i sub v : Nat) : (setSelected s q i sub v).pending = s.pending := rfl
@[simp] theorem setSelected_sys (s : State) (q : Requester) (i sub v : Nat) : (setSelected s q i sub v).sys = s.sys := rfl
@[simp] theorem setSelected_objs (s : State) (q : Requester) (i sub v : Nat) : (setSelected s q i sub v).objs = s.objs := rfl
@[simp] theorem setSelected_quartz (s : State) (q : Requester) (i sub v : Nat) : (setSelected s q i sub v).quartz = s.quartz := rfl
@[simp] theorem setSelected_net (s : State) (q : Requester) (i sub v : Nat) : (setSelected s q i sub v).net = s.net := rfl
@[simp] theorem setSelected_work (s : State) (q : Requester) (i sub v : Nat) : (setSelected s q i sub v).work = s.work := rfl
@[simp] theorem setSelected_ctxs (s : State) (q : Requester) (i sub v : Nat) : (setSelected s q i sub v).ctxs = s.ctxs := rfl
@[simp] theorem setSelected_store (s : State) (q : Requester) (i sub v : Nat) : (setSelected s q i sub v).store = s.store := rfl
@[simp] theorem setSelected_grid (s : State) (q : Requester) (i sub v : Nat) : (setSelected s q i sub v).grid = s.grid := rfl
@[simp] theorem setSelected_chim (s : State) (q : Requester) (i sub v : Nat) : (setSelected s q i sub v).chim = s.chim := rfl
@[simp] theorem setSelected_flue (s : State) (q : Requester) (i sub v : Nat) : (setSelected s q i sub v).flue = s.flue := rfl
@[simp] theorem setSelected_ctr (s : State) (q : Requester) (i sub v : Nat) : (setSelected s q i sub v).ctr = s.ctr := rfl
@[simp] theorem setSelected_mgmt (s : State) (q : Requester) (i sub v : Nat) : (setSelected s q i sub v).mgmt = s.mgmt := rfl
@[simp] theorem setSelected_power (s : State) (q : Requester) (i sub v : Nat) : (setSelected s q i sub v).power = s.power := rfl
@[simp] theorem setSelected_recov (s : State) (q : Requester) (i sub v : Nat) : (setSelected s q i sub v).recov = s.recov := rfl
@[simp] theorem sendP_pending (s : State) (i sub sel : Nat) (data : Bytes) : (sendP s i sub sel data).pending = s.pending := rfl
@[simp] theorem sendP_sys (s : State) (i sub sel : Nat) (data : Bytes) : (sendP s i sub sel data).sys = s.sys := rfl
@[simp] theorem sendP_objs (s : State) (i sub sel : Nat) (data : Bytes) : (sendP s i sub sel data).objs = s.objs := rfl
@[simp] theorem sendP_selects (s : State) (i sub sel : Nat) (data : Bytes) : (sendP s i sub sel data).selects = s.selects := rfl
@[simp] theorem sendP_quartz (s : State) (i sub sel : Nat) (data : Bytes) : (sendP s i sub sel data).quartz = s.quartz := rfl
@[simp] theorem sendP_net (s : State) (i sub sel : Nat) (data : Bytes) : (sendP s i sub sel data).net = s.net := rfl
@[simp] theorem sendP_work (s : State) (i sub sel : Nat) (data : Bytes) : (sendP s i sub sel data).work = s.work := rfl
@[simp] theorem sendP_ctxs (s : State) (i sub sel : Nat) (data : Bytes) : (sendP s i sub sel data).ctxs = s.ctxs := rfl
@[simp] theorem sendP_store (s : State) (i sub sel : Nat) (data : Bytes) : (sendP s i sub sel data).store = s.store := rfl
@[simp] theorem sendP_grid (s : State) (i sub sel : Nat) (data : Bytes) : (sendP s i sub sel data).grid = s.grid := rfl
@[simp] theorem sendP_chim (s : State) (i sub sel : Nat) (data : Bytes) : (sendP s i sub sel data).chim = s.chim := rfl
@[simp] theorem sendP_flue (s : State) (i sub sel : Nat) (data : Bytes) : (sendP s i sub sel data).flue = s.flue := rfl
@[simp] theorem sendP_ctr (s : State) (i sub sel : Nat) (data : Bytes) : (sendP s i sub sel data).ctr = s.ctr := rfl
@[simp] theorem sendP_power (s : State) (i sub sel : Nat) (data : Bytes) : (sendP s i sub sel data).power = s.power := rfl
@[simp] theorem sendP_recov (s : State) (i sub sel : Nat) (data : Bytes) : (sendP s i sub sel data).recov = s.recov := rfl
@[simp] theorem setPort_pending (s : State) (p : Nat) (x : Port) : (setPort s p x).pending = s.pending := rfl
@[simp] theorem setPort_sys (s : State) (p : Nat) (x : Port) : (setPort s p x).sys = s.sys := rfl
@[simp] theorem setPort_objs (s : State) (p : Nat) (x : Port) : (setPort s p x).objs = s.objs := rfl
@[simp] theorem setPort_selects (s : State) (p : Nat) (x : Port) : (setPort s p x).selects = s.selects := rfl
@[simp] theorem setPort_quartz (s : State) (p : Nat) (x : Port) : (setPort s p x).quartz = s.quartz := rfl
@[simp] theorem setPort_work (s : State) (p : Nat) (x : Port) : (setPort s p x).work = s.work := rfl
@[simp] theorem setPort_ctxs (s : State) (p : Nat) (x : Port) : (setPort s p x).ctxs = s.ctxs := rfl
@[simp] theorem setPort_store (s : State) (p : Nat) (x : Port) : (setPort s p x).store = s.store := rfl
@[simp] theorem setPort_grid (s : State) (p : Nat) (x : Port) : (setPort s p x).grid = s.grid := rfl
@[simp] theorem setPort_chim (s : State) (p : Nat) (x : Port) : (setPort s p x).chim = s.chim := rfl
@[simp] theorem setPort_flue (s : State) (p : Nat) (x : Port) : (setPort s p x).flue = s.flue := rfl
@[simp] theorem setPort_ctr (s : State) (p : Nat) (x : Port) : (setPort s p x).ctr = s.ctr := rfl
@[simp] theorem setPort_mgmt (s : State) (p : Nat) (x : Port) : (setPort s p x).mgmt = s.mgmt := rfl
@[simp] theorem setPort_power (s : State) (p : Nat) (x : Port) : (setPort s p x).power = s.power := rfl
@[simp] theorem setPort_recov (s : State) (p : Nat) (x : Port) : (setPort s p x).recov = s.recov := rfl
@[simp] theorem setFilter_pending (s : State) (p idx : Nat) (e : BitVec 256) : (setFilter s p idx e).pending = s.pending := rfl
@[simp] theorem setFilter_sys (s : State) (p idx : Nat) (e : BitVec 256) : (setFilter s p idx e).sys = s.sys := rfl
@[simp] theorem setFilter_objs (s : State) (p idx : Nat) (e : BitVec 256) : (setFilter s p idx e).objs = s.objs := rfl
@[simp] theorem setFilter_selects (s : State) (p idx : Nat) (e : BitVec 256) : (setFilter s p idx e).selects = s.selects := rfl
@[simp] theorem setFilter_quartz (s : State) (p idx : Nat) (e : BitVec 256) : (setFilter s p idx e).quartz = s.quartz := rfl
@[simp] theorem setFilter_work (s : State) (p idx : Nat) (e : BitVec 256) : (setFilter s p idx e).work = s.work := rfl
@[simp] theorem setFilter_ctxs (s : State) (p idx : Nat) (e : BitVec 256) : (setFilter s p idx e).ctxs = s.ctxs := rfl
@[simp] theorem setFilter_store (s : State) (p idx : Nat) (e : BitVec 256) : (setFilter s p idx e).store = s.store := rfl
@[simp] theorem setFilter_grid (s : State) (p idx : Nat) (e : BitVec 256) : (setFilter s p idx e).grid = s.grid := rfl
@[simp] theorem setFilter_chim (s : State) (p idx : Nat) (e : BitVec 256) : (setFilter s p idx e).chim = s.chim := rfl
@[simp] theorem setFilter_flue (s : State) (p idx : Nat) (e : BitVec 256) : (setFilter s p idx e).flue = s.flue := rfl
@[simp] theorem setFilter_ctr (s : State) (p idx : Nat) (e : BitVec 256) : (setFilter s p idx e).ctr = s.ctr := rfl
@[simp] theorem setFilter_mgmt (s : State) (p idx : Nat) (e : BitVec 256) : (setFilter s p idx e).mgmt = s.mgmt := rfl
@[simp] theorem setFilter_power (s : State) (p idx : Nat) (e : BitVec 256) : (setFilter s p idx e).power = s.power := rfl
@[simp] theorem setFilter_recov (s : State) (p idx : Nat) (e : BitVec 256) : (setFilter s p idx e).recov = s.recov := rfl
@[simp] theorem setRing_pending (s : State) (r : Nat) (x : Ring) : (setRing s r x).pending = s.pending := rfl
@[simp] theorem setRing_sys (s : State) (r : Nat) (x : Ring) : (setRing s r x).sys = s.sys := rfl
@[simp] theorem setRing_objs (s : State) (r : Nat) (x : Ring) : (setRing s r x).objs = s.objs := rfl
@[simp] theorem setRing_selects (s : State) (r : Nat) (x : Ring) : (setRing s r x).selects = s.selects := rfl
@[simp] theorem setRing_quartz (s : State) (r : Nat) (x : Ring) : (setRing s r x).quartz = s.quartz := rfl
@[simp] theorem setRing_work (s : State) (r : Nat) (x : Ring) : (setRing s r x).work = s.work := rfl
@[simp] theorem setRing_ctxs (s : State) (r : Nat) (x : Ring) : (setRing s r x).ctxs = s.ctxs := rfl
@[simp] theorem setRing_store (s : State) (r : Nat) (x : Ring) : (setRing s r x).store = s.store := rfl
@[simp] theorem setRing_grid (s : State) (r : Nat) (x : Ring) : (setRing s r x).grid = s.grid := rfl
@[simp] theorem setRing_chim (s : State) (r : Nat) (x : Ring) : (setRing s r x).chim = s.chim := rfl
@[simp] theorem setRing_flue (s : State) (r : Nat) (x : Ring) : (setRing s r x).flue = s.flue := rfl
@[simp] theorem setRing_ctr (s : State) (r : Nat) (x : Ring) : (setRing s r x).ctr = s.ctr := rfl
@[simp] theorem setRing_mgmt (s : State) (r : Nat) (x : Ring) : (setRing s r x).mgmt = s.mgmt := rfl
@[simp] theorem setRing_power (s : State) (r : Nat) (x : Ring) : (setRing s r x).power = s.power := rfl
@[simp] theorem setRing_recov (s : State) (r : Nat) (x : Ring) : (setRing s r x).recov = s.recov := rfl
@[simp] theorem setFrame_pending (s : State) (f : Nat) (x : Frame) : (setFrame s f x).pending = s.pending := rfl
@[simp] theorem setFrame_sys (s : State) (f : Nat) (x : Frame) : (setFrame s f x).sys = s.sys := rfl
@[simp] theorem setFrame_objs (s : State) (f : Nat) (x : Frame) : (setFrame s f x).objs = s.objs := rfl
@[simp] theorem setFrame_selects (s : State) (f : Nat) (x : Frame) : (setFrame s f x).selects = s.selects := rfl
@[simp] theorem setFrame_quartz (s : State) (f : Nat) (x : Frame) : (setFrame s f x).quartz = s.quartz := rfl
@[simp] theorem setFrame_work (s : State) (f : Nat) (x : Frame) : (setFrame s f x).work = s.work := rfl
@[simp] theorem setFrame_ctxs (s : State) (f : Nat) (x : Frame) : (setFrame s f x).ctxs = s.ctxs := rfl
@[simp] theorem setFrame_store (s : State) (f : Nat) (x : Frame) : (setFrame s f x).store = s.store := rfl
@[simp] theorem setFrame_grid (s : State) (f : Nat) (x : Frame) : (setFrame s f x).grid = s.grid := rfl
@[simp] theorem setFrame_chim (s : State) (f : Nat) (x : Frame) : (setFrame s f x).chim = s.chim := rfl
@[simp] theorem setFrame_flue (s : State) (f : Nat) (x : Frame) : (setFrame s f x).flue = s.flue := rfl
@[simp] theorem setFrame_ctr (s : State) (f : Nat) (x : Frame) : (setFrame s f x).ctr = s.ctr := rfl
@[simp] theorem setFrame_mgmt (s : State) (f : Nat) (x : Frame) : (setFrame s f x).mgmt = s.mgmt := rfl
@[simp] theorem setFrame_power (s : State) (f : Nat) (x : Frame) : (setFrame s f x).power = s.power := rfl
@[simp] theorem setFrame_recov (s : State) (f : Nat) (x : Frame) : (setFrame s f x).recov = s.recov := rfl
@[simp] theorem setMsg_pending (s : State) (m : Nat) (x : Msg) : (setMsg s m x).pending = s.pending := rfl
@[simp] theorem setMsg_sys (s : State) (m : Nat) (x : Msg) : (setMsg s m x).sys = s.sys := rfl
@[simp] theorem setMsg_objs (s : State) (m : Nat) (x : Msg) : (setMsg s m x).objs = s.objs := rfl
@[simp] theorem setMsg_selects (s : State) (m : Nat) (x : Msg) : (setMsg s m x).selects = s.selects := rfl
@[simp] theorem setMsg_quartz (s : State) (m : Nat) (x : Msg) : (setMsg s m x).quartz = s.quartz := rfl
@[simp] theorem setMsg_net (s : State) (m : Nat) (x : Msg) : (setMsg s m x).net = s.net := rfl
@[simp] theorem setMsg_ctxs (s : State) (m : Nat) (x : Msg) : (setMsg s m x).ctxs = s.ctxs := rfl
@[simp] theorem setMsg_store (s : State) (m : Nat) (x : Msg) : (setMsg s m x).store = s.store := rfl
@[simp] theorem setMsg_grid (s : State) (m : Nat) (x : Msg) : (setMsg s m x).grid = s.grid := rfl
@[simp] theorem setMsg_chim (s : State) (m : Nat) (x : Msg) : (setMsg s m x).chim = s.chim := rfl
@[simp] theorem setMsg_flue (s : State) (m : Nat) (x : Msg) : (setMsg s m x).flue = s.flue := rfl
@[simp] theorem setMsg_ctr (s : State) (m : Nat) (x : Msg) : (setMsg s m x).ctr = s.ctr := rfl
@[simp] theorem setMsg_mgmt (s : State) (m : Nat) (x : Msg) : (setMsg s m x).mgmt = s.mgmt := rfl
@[simp] theorem setMsg_power (s : State) (m : Nat) (x : Msg) : (setMsg s m x).power = s.power := rfl
@[simp] theorem setMsg_recov (s : State) (m : Nat) (x : Msg) : (setMsg s m x).recov = s.recov := rfl
@[simp] theorem setSymbol_pending (s : State) (k : Nat) (v : Option (Nat × BitVec 64 × Nat)) : (setSymbol s k v).pending = s.pending := rfl
@[simp] theorem setSymbol_sys (s : State) (k : Nat) (v : Option (Nat × BitVec 64 × Nat)) : (setSymbol s k v).sys = s.sys := rfl
@[simp] theorem setSymbol_objs (s : State) (k : Nat) (v : Option (Nat × BitVec 64 × Nat)) : (setSymbol s k v).objs = s.objs := rfl
@[simp] theorem setSymbol_selects (s : State) (k : Nat) (v : Option (Nat × BitVec 64 × Nat)) : (setSymbol s k v).selects = s.selects := rfl
@[simp] theorem setSymbol_quartz (s : State) (k : Nat) (v : Option (Nat × BitVec 64 × Nat)) : (setSymbol s k v).quartz = s.quartz := rfl
@[simp] theorem setSymbol_net (s : State) (k : Nat) (v : Option (Nat × BitVec 64 × Nat)) : (setSymbol s k v).net = s.net := rfl
@[simp] theorem setSymbol_ctxs (s : State) (k : Nat) (v : Option (Nat × BitVec 64 × Nat)) : (setSymbol s k v).ctxs = s.ctxs := rfl
@[simp] theorem setSymbol_store (s : State) (k : Nat) (v : Option (Nat × BitVec 64 × Nat)) : (setSymbol s k v).store = s.store := rfl
@[simp] theorem setSymbol_grid (s : State) (k : Nat) (v : Option (Nat × BitVec 64 × Nat)) : (setSymbol s k v).grid = s.grid := rfl
@[simp] theorem setSymbol_chim (s : State) (k : Nat) (v : Option (Nat × BitVec 64 × Nat)) : (setSymbol s k v).chim = s.chim := rfl
@[simp] theorem setSymbol_flue (s : State) (k : Nat) (v : Option (Nat × BitVec 64 × Nat)) : (setSymbol s k v).flue = s.flue := rfl
@[simp] theorem setSymbol_ctr (s : State) (k : Nat) (v : Option (Nat × BitVec 64 × Nat)) : (setSymbol s k v).ctr = s.ctr := rfl
@[simp] theorem setSymbol_mgmt (s : State) (k : Nat) (v : Option (Nat × BitVec 64 × Nat)) : (setSymbol s k v).mgmt = s.mgmt := rfl
@[simp] theorem setSymbol_power (s : State) (k : Nat) (v : Option (Nat × BitVec 64 × Nat)) : (setSymbol s k v).power = s.power := rfl
@[simp] theorem setSymbol_recov (s : State) (k : Nat) (v : Option (Nat × BitVec 64 × Nat)) : (setSymbol s k v).recov = s.recov := rfl
@[simp] theorem setRow_pending (s : State) (i : Nat) (r : List (Nat × BitVec 64)) : (setRow s i r).pending = s.pending := rfl
@[simp] theorem setRow_sys (s : State) (i : Nat) (r : List (Nat × BitVec 64)) : (setRow s i r).sys = s.sys := rfl
@[simp] theorem setRow_objs (s : State) (i : Nat) (r : List (Nat × BitVec 64)) : (setRow s i r).objs = s.objs := rfl
@[simp] theorem setRow_selects (s : State) (i : Nat) (r : List (Nat × BitVec 64)) : (setRow s i r).selects = s.selects := rfl
@[simp] theorem setRow_quartz (s : State) (i : Nat) (r : List (Nat × BitVec 64)) : (setRow s i r).quartz = s.quartz := rfl
@[simp] theorem setRow_net (s : State) (i : Nat) (r : List (Nat × BitVec 64)) : (setRow s i r).net = s.net := rfl
@[simp] theorem setRow_ctxs (s : State) (i : Nat) (r : List (Nat × BitVec 64)) : (setRow s i r).ctxs = s.ctxs := rfl
@[simp] theorem setRow_store (s : State) (i : Nat) (r : List (Nat × BitVec 64)) : (setRow s i r).store = s.store := rfl
@[simp] theorem setRow_grid (s : State) (i : Nat) (r : List (Nat × BitVec 64)) : (setRow s i r).grid = s.grid := rfl
@[simp] theorem setRow_chim (s : State) (i : Nat) (r : List (Nat × BitVec 64)) : (setRow s i r).chim = s.chim := rfl
@[simp] theorem setRow_flue (s : State) (i : Nat) (r : List (Nat × BitVec 64)) : (setRow s i r).flue = s.flue := rfl
@[simp] theorem setRow_ctr (s : State) (i : Nat) (r : List (Nat × BitVec 64)) : (setRow s i r).ctr = s.ctr := rfl
@[simp] theorem setRow_mgmt (s : State) (i : Nat) (r : List (Nat × BitVec 64)) : (setRow s i r).mgmt = s.mgmt := rfl
@[simp] theorem setRow_power (s : State) (i : Nat) (r : List (Nat × BitVec 64)) : (setRow s i r).power = s.power := rfl
@[simp] theorem setRow_recov (s : State) (i : Nat) (r : List (Nat × BitVec 64)) : (setRow s i r).recov = s.recov := rfl
@[simp] theorem setSlot_pending (s : State) (i : Nat) (x : Slot) : (setSlot s i x).pending = s.pending := rfl
@[simp] theorem setSlot_sys (s : State) (i : Nat) (x : Slot) : (setSlot s i x).sys = s.sys := rfl
@[simp] theorem setSlot_objs (s : State) (i : Nat) (x : Slot) : (setSlot s i x).objs = s.objs := rfl
@[simp] theorem setSlot_selects (s : State) (i : Nat) (x : Slot) : (setSlot s i x).selects = s.selects := rfl
@[simp] theorem setSlot_quartz (s : State) (i : Nat) (x : Slot) : (setSlot s i x).quartz = s.quartz := rfl
@[simp] theorem setSlot_net (s : State) (i : Nat) (x : Slot) : (setSlot s i x).net = s.net := rfl
@[simp] theorem setSlot_ctxs (s : State) (i : Nat) (x : Slot) : (setSlot s i x).ctxs = s.ctxs := rfl
@[simp] theorem setSlot_store (s : State) (i : Nat) (x : Slot) : (setSlot s i x).store = s.store := rfl
@[simp] theorem setSlot_grid (s : State) (i : Nat) (x : Slot) : (setSlot s i x).grid = s.grid := rfl
@[simp] theorem setSlot_chim (s : State) (i : Nat) (x : Slot) : (setSlot s i x).chim = s.chim := rfl
@[simp] theorem setSlot_flue (s : State) (i : Nat) (x : Slot) : (setSlot s i x).flue = s.flue := rfl
@[simp] theorem setSlot_ctr (s : State) (i : Nat) (x : Slot) : (setSlot s i x).ctr = s.ctr := rfl
@[simp] theorem setSlot_mgmt (s : State) (i : Nat) (x : Slot) : (setSlot s i x).mgmt = s.mgmt := rfl
@[simp] theorem setSlot_power (s : State) (i : Nat) (x : Slot) : (setSlot s i x).power = s.power := rfl
@[simp] theorem setSlot_recov (s : State) (i : Nat) (x : Slot) : (setSlot s i x).recov = s.recov := rfl
@[simp] theorem setAccess_pending (s : State) (c : Nat) (l : List Group) : (setAccess s c l).pending = s.pending := rfl
@[simp] theorem setAccess_sys (s : State) (c : Nat) (l : List Group) : (setAccess s c l).sys = s.sys := rfl
@[simp] theorem setAccess_objs (s : State) (c : Nat) (l : List Group) : (setAccess s c l).objs = s.objs := rfl
@[simp] theorem setAccess_selects (s : State) (c : Nat) (l : List Group) : (setAccess s c l).selects = s.selects := rfl
@[simp] theorem setAccess_quartz (s : State) (c : Nat) (l : List Group) : (setAccess s c l).quartz = s.quartz := rfl
@[simp] theorem setAccess_net (s : State) (c : Nat) (l : List Group) : (setAccess s c l).net = s.net := rfl
@[simp] theorem setAccess_ctxs (s : State) (c : Nat) (l : List Group) : (setAccess s c l).ctxs = s.ctxs := rfl
@[simp] theorem setAccess_store (s : State) (c : Nat) (l : List Group) : (setAccess s c l).store = s.store := rfl
@[simp] theorem setAccess_grid (s : State) (c : Nat) (l : List Group) : (setAccess s c l).grid = s.grid := rfl
@[simp] theorem setAccess_chim (s : State) (c : Nat) (l : List Group) : (setAccess s c l).chim = s.chim := rfl
@[simp] theorem setAccess_flue (s : State) (c : Nat) (l : List Group) : (setAccess s c l).flue = s.flue := rfl
@[simp] theorem setAccess_ctr (s : State) (c : Nat) (l : List Group) : (setAccess s c l).ctr = s.ctr := rfl
@[simp] theorem setAccess_mgmt (s : State) (c : Nat) (l : List Group) : (setAccess s c l).mgmt = s.mgmt := rfl
@[simp] theorem setAccess_power (s : State) (c : Nat) (l : List Group) : (setAccess s c l).power = s.power := rfl
@[simp] theorem setAccess_recov (s : State) (c : Nat) (l : List Group) : (setAccess s c l).recov = s.recov := rfl
@[simp] theorem setCounter_pending (s : State) (k : Nat) (v : BitVec 64) : (setCounter s k v).pending = s.pending := rfl
@[simp] theorem setCounter_sys (s : State) (k : Nat) (v : BitVec 64) : (setCounter s k v).sys = s.sys := rfl
@[simp] theorem setCounter_objs (s : State) (k : Nat) (v : BitVec 64) : (setCounter s k v).objs = s.objs := rfl
@[simp] theorem setCounter_selects (s : State) (k : Nat) (v : BitVec 64) : (setCounter s k v).selects = s.selects := rfl
@[simp] theorem setCounter_quartz (s : State) (k : Nat) (v : BitVec 64) : (setCounter s k v).quartz = s.quartz := rfl
@[simp] theorem setCounter_net (s : State) (k : Nat) (v : BitVec 64) : (setCounter s k v).net = s.net := rfl
@[simp] theorem setCounter_work (s : State) (k : Nat) (v : BitVec 64) : (setCounter s k v).work = s.work := rfl
@[simp] theorem setCounter_ctxs (s : State) (k : Nat) (v : BitVec 64) : (setCounter s k v).ctxs = s.ctxs := rfl
@[simp] theorem setCounter_store (s : State) (k : Nat) (v : BitVec 64) : (setCounter s k v).store = s.store := rfl
@[simp] theorem setCounter_grid (s : State) (k : Nat) (v : BitVec 64) : (setCounter s k v).grid = s.grid := rfl
@[simp] theorem setCounter_chim (s : State) (k : Nat) (v : BitVec 64) : (setCounter s k v).chim = s.chim := rfl
@[simp] theorem setCounter_flue (s : State) (k : Nat) (v : BitVec 64) : (setCounter s k v).flue = s.flue := rfl
@[simp] theorem setCounter_mgmt (s : State) (k : Nat) (v : BitVec 64) : (setCounter s k v).mgmt = s.mgmt := rfl
@[simp] theorem setCounter_power (s : State) (k : Nat) (v : BitVec 64) : (setCounter s k v).power = s.power := rfl
@[simp] theorem setCounter_recov (s : State) (k : Nat) (v : BitVec 64) : (setCounter s k v).recov = s.recov := rfl
@[simp] theorem requestInc_pending (s : State) (counter : Nat) (amount : BitVec 64) (tag : BitVec 14) : (requestInc s counter amount tag).pending = s.pending := rfl
@[simp] theorem requestInc_sys (s : State) (counter : Nat) (amount : BitVec 64) (tag : BitVec 14) : (requestInc s counter amount tag).sys = s.sys := rfl
@[simp] theorem requestInc_objs (s : State) (counter : Nat) (amount : BitVec 64) (tag : BitVec 14) : (requestInc s counter amount tag).objs = s.objs := rfl
@[simp] theorem requestInc_selects (s : State) (counter : Nat) (amount : BitVec 64) (tag : BitVec 14) : (requestInc s counter amount tag).selects = s.selects := rfl
@[simp] theorem requestInc_quartz (s : State) (counter : Nat) (amount : BitVec 64) (tag : BitVec 14) : (requestInc s counter amount tag).quartz = s.quartz := rfl
@[simp] theorem requestInc_net (s : State) (counter : Nat) (amount : BitVec 64) (tag : BitVec 14) : (requestInc s counter amount tag).net = s.net := rfl
@[simp] theorem requestInc_work (s : State) (counter : Nat) (amount : BitVec 64) (tag : BitVec 14) : (requestInc s counter amount tag).work = s.work := rfl
@[simp] theorem requestInc_ctxs (s : State) (counter : Nat) (amount : BitVec 64) (tag : BitVec 14) : (requestInc s counter amount tag).ctxs = s.ctxs := rfl
@[simp] theorem requestInc_store (s : State) (counter : Nat) (amount : BitVec 64) (tag : BitVec 14) : (requestInc s counter amount tag).store = s.store := rfl
@[simp] theorem requestInc_grid (s : State) (counter : Nat) (amount : BitVec 64) (tag : BitVec 14) : (requestInc s counter amount tag).grid = s.grid := rfl
@[simp] theorem requestInc_chim (s : State) (counter : Nat) (amount : BitVec 64) (tag : BitVec 14) : (requestInc s counter amount tag).chim = s.chim := rfl
@[simp] theorem requestInc_flue (s : State) (counter : Nat) (amount : BitVec 64) (tag : BitVec 14) : (requestInc s counter amount tag).flue = s.flue := rfl
@[simp] theorem requestInc_mgmt (s : State) (counter : Nat) (amount : BitVec 64) (tag : BitVec 14) : (requestInc s counter amount tag).mgmt = s.mgmt := rfl
@[simp] theorem requestInc_power (s : State) (counter : Nat) (amount : BitVec 64) (tag : BitVec 14) : (requestInc s counter amount tag).power = s.power := rfl
@[simp] theorem requestInc_recov (s : State) (counter : Nat) (amount : BitVec 64) (tag : BitVec 14) : (requestInc s counter amount tag).recov = s.recov := rfl
@[simp] theorem setReply_pending (s : State) (r : Nat) (x : Reply) : (setReply s r x).pending = s.pending := rfl
@[simp] theorem setReply_sys (s : State) (r : Nat) (x : Reply) : (setReply s r x).sys = s.sys := rfl
@[simp] theorem setReply_objs (s : State) (r : Nat) (x : Reply) : (setReply s r x).objs = s.objs := rfl
@[simp] theorem setReply_selects (s : State) (r : Nat) (x : Reply) : (setReply s r x).selects = s.selects := rfl
@[simp] theorem setReply_quartz (s : State) (r : Nat) (x : Reply) : (setReply s r x).quartz = s.quartz := rfl
@[simp] theorem setReply_net (s : State) (r : Nat) (x : Reply) : (setReply s r x).net = s.net := rfl
@[simp] theorem setReply_work (s : State) (r : Nat) (x : Reply) : (setReply s r x).work = s.work := rfl
@[simp] theorem setReply_ctxs (s : State) (r : Nat) (x : Reply) : (setReply s r x).ctxs = s.ctxs := rfl
@[simp] theorem setReply_store (s : State) (r : Nat) (x : Reply) : (setReply s r x).store = s.store := rfl
@[simp] theorem setReply_grid (s : State) (r : Nat) (x : Reply) : (setReply s r x).grid = s.grid := rfl
@[simp] theorem setReply_flue (s : State) (r : Nat) (x : Reply) : (setReply s r x).flue = s.flue := rfl
@[simp] theorem setReply_ctr (s : State) (r : Nat) (x : Reply) : (setReply s r x).ctr = s.ctr := rfl
@[simp] theorem setReply_mgmt (s : State) (r : Nat) (x : Reply) : (setReply s r x).mgmt = s.mgmt := rfl
@[simp] theorem setReply_power (s : State) (r : Nat) (x : Reply) : (setReply s r x).power = s.power := rfl
@[simp] theorem setReply_recov (s : State) (r : Nat) (x : Reply) : (setReply s r x).recov = s.recov := rfl
@[simp] theorem setLine_pending (s : State) (c p : Nat) (l : List Nat) : (setLine s c p l).pending = s.pending := rfl
@[simp] theorem setLine_sys (s : State) (c p : Nat) (l : List Nat) : (setLine s c p l).sys = s.sys := rfl
@[simp] theorem setLine_objs (s : State) (c p : Nat) (l : List Nat) : (setLine s c p l).objs = s.objs := rfl
@[simp] theorem setLine_selects (s : State) (c p : Nat) (l : List Nat) : (setLine s c p l).selects = s.selects := rfl
@[simp] theorem setLine_quartz (s : State) (c p : Nat) (l : List Nat) : (setLine s c p l).quartz = s.quartz := rfl
@[simp] theorem setLine_net (s : State) (c p : Nat) (l : List Nat) : (setLine s c p l).net = s.net := rfl
@[simp] theorem setLine_work (s : State) (c p : Nat) (l : List Nat) : (setLine s c p l).work = s.work := rfl
@[simp] theorem setLine_ctxs (s : State) (c p : Nat) (l : List Nat) : (setLine s c p l).ctxs = s.ctxs := rfl
@[simp] theorem setLine_store (s : State) (c p : Nat) (l : List Nat) : (setLine s c p l).store = s.store := rfl
@[simp] theorem setLine_grid (s : State) (c p : Nat) (l : List Nat) : (setLine s c p l).grid = s.grid := rfl
@[simp] theorem setLine_flue (s : State) (c p : Nat) (l : List Nat) : (setLine s c p l).flue = s.flue := rfl
@[simp] theorem setLine_ctr (s : State) (c p : Nat) (l : List Nat) : (setLine s c p l).ctr = s.ctr := rfl
@[simp] theorem setLine_mgmt (s : State) (c p : Nat) (l : List Nat) : (setLine s c p l).mgmt = s.mgmt := rfl
@[simp] theorem setLine_power (s : State) (c p : Nat) (l : List Nat) : (setLine s c p l).power = s.power := rfl
@[simp] theorem setLine_recov (s : State) (c p : Nat) (l : List Nat) : (setLine s c p l).recov = s.recov := rfl
@[simp] theorem setTokens_pending (s : State) (k n : Nat) : (setTokens s k n).pending = s.pending := rfl
@[simp] theorem setTokens_sys (s : State) (k n : Nat) : (setTokens s k n).sys = s.sys := rfl
@[simp] theorem setTokens_objs (s : State) (k n : Nat) : (setTokens s k n).objs = s.objs := rfl
@[simp] theorem setTokens_selects (s : State) (k n : Nat) : (setTokens s k n).selects = s.selects := rfl
@[simp] theorem setTokens_quartz (s : State) (k n : Nat) : (setTokens s k n).quartz = s.quartz := rfl
@[simp] theorem setTokens_net (s : State) (k n : Nat) : (setTokens s k n).net = s.net := rfl
@[simp] theorem setTokens_work (s : State) (k n : Nat) : (setTokens s k n).work = s.work := rfl
@[simp] theorem setTokens_ctxs (s : State) (k n : Nat) : (setTokens s k n).ctxs = s.ctxs := rfl
@[simp] theorem setTokens_store (s : State) (k n : Nat) : (setTokens s k n).store = s.store := rfl
@[simp] theorem setTokens_grid (s : State) (k n : Nat) : (setTokens s k n).grid = s.grid := rfl
@[simp] theorem setTokens_flue (s : State) (k n : Nat) : (setTokens s k n).flue = s.flue := rfl
@[simp] theorem setTokens_ctr (s : State) (k n : Nat) : (setTokens s k n).ctr = s.ctr := rfl
@[simp] theorem setTokens_mgmt (s : State) (k n : Nat) : (setTokens s k n).mgmt = s.mgmt := rfl
@[simp] theorem setTokens_power (s : State) (k n : Nat) : (setTokens s k n).power = s.power := rfl
@[simp] theorem setTokens_recov (s : State) (k n : Nat) : (setTokens s k n).recov = s.recov := rfl
@[simp] theorem setEns_pending (s : State) (c k : Nat) (x : EnsSlot) : (setEns s c k x).pending = s.pending := rfl
@[simp] theorem setEns_sys (s : State) (c k : Nat) (x : EnsSlot) : (setEns s c k x).sys = s.sys := rfl
@[simp] theorem setEns_objs (s : State) (c k : Nat) (x : EnsSlot) : (setEns s c k x).objs = s.objs := rfl
@[simp] theorem setEns_selects (s : State) (c k : Nat) (x : EnsSlot) : (setEns s c k x).selects = s.selects := rfl
@[simp] theorem setEns_quartz (s : State) (c k : Nat) (x : EnsSlot) : (setEns s c k x).quartz = s.quartz := rfl
@[simp] theorem setEns_net (s : State) (c k : Nat) (x : EnsSlot) : (setEns s c k x).net = s.net := rfl
@[simp] theorem setEns_work (s : State) (c k : Nat) (x : EnsSlot) : (setEns s c k x).work = s.work := rfl
@[simp] theorem setEns_store (s : State) (c k : Nat) (x : EnsSlot) : (setEns s c k x).store = s.store := rfl
@[simp] theorem setEns_grid (s : State) (c k : Nat) (x : EnsSlot) : (setEns s c k x).grid = s.grid := rfl
@[simp] theorem setEns_chim (s : State) (c k : Nat) (x : EnsSlot) : (setEns s c k x).chim = s.chim := rfl
@[simp] theorem setEns_flue (s : State) (c k : Nat) (x : EnsSlot) : (setEns s c k x).flue = s.flue := rfl
@[simp] theorem setEns_ctr (s : State) (c k : Nat) (x : EnsSlot) : (setEns s c k x).ctr = s.ctr := rfl
@[simp] theorem setEns_mgmt (s : State) (c k : Nat) (x : EnsSlot) : (setEns s c k x).mgmt = s.mgmt := rfl
@[simp] theorem setEns_power (s : State) (c k : Nat) (x : EnsSlot) : (setEns s c k x).power = s.power := rfl
@[simp] theorem setEns_recov (s : State) (c k : Nat) (x : EnsSlot) : (setEns s c k x).recov = s.recov := rfl
@[simp] theorem setRun_pending (s : State) (c : Nat) (r : HRun) : (setRun s c r).pending = s.pending := rfl
@[simp] theorem setRun_sys (s : State) (c : Nat) (r : HRun) : (setRun s c r).sys = s.sys := rfl
@[simp] theorem setRun_objs (s : State) (c : Nat) (r : HRun) : (setRun s c r).objs = s.objs := rfl
@[simp] theorem setRun_selects (s : State) (c : Nat) (r : HRun) : (setRun s c r).selects = s.selects := rfl
@[simp] theorem setRun_quartz (s : State) (c : Nat) (r : HRun) : (setRun s c r).quartz = s.quartz := rfl
@[simp] theorem setRun_net (s : State) (c : Nat) (r : HRun) : (setRun s c r).net = s.net := rfl
@[simp] theorem setRun_work (s : State) (c : Nat) (r : HRun) : (setRun s c r).work = s.work := rfl
@[simp] theorem setRun_store (s : State) (c : Nat) (r : HRun) : (setRun s c r).store = s.store := rfl
@[simp] theorem setRun_grid (s : State) (c : Nat) (r : HRun) : (setRun s c r).grid = s.grid := rfl
@[simp] theorem setRun_chim (s : State) (c : Nat) (r : HRun) : (setRun s c r).chim = s.chim := rfl
@[simp] theorem setRun_flue (s : State) (c : Nat) (r : HRun) : (setRun s c r).flue = s.flue := rfl
@[simp] theorem setRun_ctr (s : State) (c : Nat) (r : HRun) : (setRun s c r).ctr = s.ctr := rfl
@[simp] theorem setRun_mgmt (s : State) (c : Nat) (r : HRun) : (setRun s c r).mgmt = s.mgmt := rfl
@[simp] theorem setRun_power (s : State) (c : Nat) (r : HRun) : (setRun s c r).power = s.power := rfl
@[simp] theorem setRun_recov (s : State) (c : Nat) (r : HRun) : (setRun s c r).recov = s.recov := rfl
@[simp] theorem setSwap_pending (s : State) (c : Nat) (w : Option Swap) : (setSwap s c w).pending = s.pending := rfl
@[simp] theorem setSwap_sys (s : State) (c : Nat) (w : Option Swap) : (setSwap s c w).sys = s.sys := rfl
@[simp] theorem setSwap_objs (s : State) (c : Nat) (w : Option Swap) : (setSwap s c w).objs = s.objs := rfl
@[simp] theorem setSwap_selects (s : State) (c : Nat) (w : Option Swap) : (setSwap s c w).selects = s.selects := rfl
@[simp] theorem setSwap_quartz (s : State) (c : Nat) (w : Option Swap) : (setSwap s c w).quartz = s.quartz := rfl
@[simp] theorem setSwap_net (s : State) (c : Nat) (w : Option Swap) : (setSwap s c w).net = s.net := rfl
@[simp] theorem setSwap_work (s : State) (c : Nat) (w : Option Swap) : (setSwap s c w).work = s.work := rfl
@[simp] theorem setSwap_store (s : State) (c : Nat) (w : Option Swap) : (setSwap s c w).store = s.store := rfl
@[simp] theorem setSwap_grid (s : State) (c : Nat) (w : Option Swap) : (setSwap s c w).grid = s.grid := rfl
@[simp] theorem setSwap_chim (s : State) (c : Nat) (w : Option Swap) : (setSwap s c w).chim = s.chim := rfl
@[simp] theorem setSwap_flue (s : State) (c : Nat) (w : Option Swap) : (setSwap s c w).flue = s.flue := rfl
@[simp] theorem setSwap_ctr (s : State) (c : Nat) (w : Option Swap) : (setSwap s c w).ctr = s.ctr := rfl
@[simp] theorem setSwap_mgmt (s : State) (c : Nat) (w : Option Swap) : (setSwap s c w).mgmt = s.mgmt := rfl
@[simp] theorem setSwap_power (s : State) (c : Nat) (w : Option Swap) : (setSwap s c w).power = s.power := rfl
@[simp] theorem setSwap_recov (s : State) (c : Nat) (w : Option Swap) : (setSwap s c w).recov = s.recov := rfl
@[simp] theorem setRollout_pending (s : State) (c k : Nat) (r : Rollout) : (setRollout s c k r).pending = s.pending := rfl
@[simp] theorem setRollout_sys (s : State) (c k : Nat) (r : Rollout) : (setRollout s c k r).sys = s.sys := rfl
@[simp] theorem setRollout_objs (s : State) (c k : Nat) (r : Rollout) : (setRollout s c k r).objs = s.objs := rfl
@[simp] theorem setRollout_selects (s : State) (c k : Nat) (r : Rollout) : (setRollout s c k r).selects = s.selects := rfl
@[simp] theorem setRollout_quartz (s : State) (c k : Nat) (r : Rollout) : (setRollout s c k r).quartz = s.quartz := rfl
@[simp] theorem setRollout_net (s : State) (c k : Nat) (r : Rollout) : (setRollout s c k r).net = s.net := rfl
@[simp] theorem setRollout_work (s : State) (c k : Nat) (r : Rollout) : (setRollout s c k r).work = s.work := rfl
@[simp] theorem setRollout_store (s : State) (c k : Nat) (r : Rollout) : (setRollout s c k r).store = s.store := rfl
@[simp] theorem setRollout_grid (s : State) (c k : Nat) (r : Rollout) : (setRollout s c k r).grid = s.grid := rfl
@[simp] theorem setRollout_chim (s : State) (c k : Nat) (r : Rollout) : (setRollout s c k r).chim = s.chim := rfl
@[simp] theorem setRollout_flue (s : State) (c k : Nat) (r : Rollout) : (setRollout s c k r).flue = s.flue := rfl
@[simp] theorem setRollout_ctr (s : State) (c k : Nat) (r : Rollout) : (setRollout s c k r).ctr = s.ctr := rfl
@[simp] theorem setRollout_mgmt (s : State) (c k : Nat) (r : Rollout) : (setRollout s c k r).mgmt = s.mgmt := rfl
@[simp] theorem setRollout_power (s : State) (c k : Nat) (r : Rollout) : (setRollout s c k r).power = s.power := rfl
@[simp] theorem setRollout_recov (s : State) (c k : Nat) (r : Rollout) : (setRollout s c k r).recov = s.recov := rfl
@[simp] theorem setTicket_pending (s : State) (c t v : Nat) : (setTicket s c t v).pending = s.pending := rfl
@[simp] theorem setTicket_sys (s : State) (c t v : Nat) : (setTicket s c t v).sys = s.sys := rfl
@[simp] theorem setTicket_objs (s : State) (c t v : Nat) : (setTicket s c t v).objs = s.objs := rfl
@[simp] theorem setTicket_selects (s : State) (c t v : Nat) : (setTicket s c t v).selects = s.selects := rfl
@[simp] theorem setTicket_quartz (s : State) (c t v : Nat) : (setTicket s c t v).quartz = s.quartz := rfl
@[simp] theorem setTicket_net (s : State) (c t v : Nat) : (setTicket s c t v).net = s.net := rfl
@[simp] theorem setTicket_work (s : State) (c t v : Nat) : (setTicket s c t v).work = s.work := rfl
@[simp] theorem setTicket_store (s : State) (c t v : Nat) : (setTicket s c t v).store = s.store := rfl
@[simp] theorem setTicket_grid (s : State) (c t v : Nat) : (setTicket s c t v).grid = s.grid := rfl
@[simp] theorem setTicket_chim (s : State) (c t v : Nat) : (setTicket s c t v).chim = s.chim := rfl
@[simp] theorem setTicket_flue (s : State) (c t v : Nat) : (setTicket s c t v).flue = s.flue := rfl
@[simp] theorem setTicket_ctr (s : State) (c t v : Nat) : (setTicket s c t v).ctr = s.ctr := rfl
@[simp] theorem setTicket_mgmt (s : State) (c t v : Nat) : (setTicket s c t v).mgmt = s.mgmt := rfl
@[simp] theorem setTicket_power (s : State) (c t v : Nat) : (setTicket s c t v).power = s.power := rfl
@[simp] theorem setTicket_recov (s : State) (c t v : Nat) : (setTicket s c t v).recov = s.recov := rfl
@[simp] theorem setDir_pending (s : State) (i : Nat) (d : Dir) : (setDir s i d).pending = s.pending := rfl
@[simp] theorem setDir_sys (s : State) (i : Nat) (d : Dir) : (setDir s i d).sys = s.sys := rfl
@[simp] theorem setDir_objs (s : State) (i : Nat) (d : Dir) : (setDir s i d).objs = s.objs := rfl
@[simp] theorem setDir_selects (s : State) (i : Nat) (d : Dir) : (setDir s i d).selects = s.selects := rfl
@[simp] theorem setDir_quartz (s : State) (i : Nat) (d : Dir) : (setDir s i d).quartz = s.quartz := rfl
@[simp] theorem setDir_net (s : State) (i : Nat) (d : Dir) : (setDir s i d).net = s.net := rfl
@[simp] theorem setDir_work (s : State) (i : Nat) (d : Dir) : (setDir s i d).work = s.work := rfl
@[simp] theorem setDir_ctxs (s : State) (i : Nat) (d : Dir) : (setDir s i d).ctxs = s.ctxs := rfl
@[simp] theorem setDir_grid (s : State) (i : Nat) (d : Dir) : (setDir s i d).grid = s.grid := rfl
@[simp] theorem setDir_chim (s : State) (i : Nat) (d : Dir) : (setDir s i d).chim = s.chim := rfl
@[simp] theorem setDir_flue (s : State) (i : Nat) (d : Dir) : (setDir s i d).flue = s.flue := rfl
@[simp] theorem setDir_ctr (s : State) (i : Nat) (d : Dir) : (setDir s i d).ctr = s.ctr := rfl
@[simp] theorem setDir_mgmt (s : State) (i : Nat) (d : Dir) : (setDir s i d).mgmt = s.mgmt := rfl
@[simp] theorem setDir_power (s : State) (i : Nat) (d : Dir) : (setDir s i d).power = s.power := rfl
@[simp] theorem setDir_recov (s : State) (i : Nat) (d : Dir) : (setDir s i d).recov = s.recov := rfl
@[simp] theorem setCache_pending (s : State) (i : Nat) (x : Cache) : (setCache s i x).pending = s.pending := rfl
@[simp] theorem setCache_sys (s : State) (i : Nat) (x : Cache) : (setCache s i x).sys = s.sys := rfl
@[simp] theorem setCache_objs (s : State) (i : Nat) (x : Cache) : (setCache s i x).objs = s.objs := rfl
@[simp] theorem setCache_selects (s : State) (i : Nat) (x : Cache) : (setCache s i x).selects = s.selects := rfl
@[simp] theorem setCache_quartz (s : State) (i : Nat) (x : Cache) : (setCache s i x).quartz = s.quartz := rfl
@[simp] theorem setCache_net (s : State) (i : Nat) (x : Cache) : (setCache s i x).net = s.net := rfl
@[simp] theorem setCache_work (s : State) (i : Nat) (x : Cache) : (setCache s i x).work = s.work := rfl
@[simp] theorem setCache_ctxs (s : State) (i : Nat) (x : Cache) : (setCache s i x).ctxs = s.ctxs := rfl
@[simp] theorem setCache_grid (s : State) (i : Nat) (x : Cache) : (setCache s i x).grid = s.grid := rfl
@[simp] theorem setCache_chim (s : State) (i : Nat) (x : Cache) : (setCache s i x).chim = s.chim := rfl
@[simp] theorem setCache_flue (s : State) (i : Nat) (x : Cache) : (setCache s i x).flue = s.flue := rfl
@[simp] theorem setCache_ctr (s : State) (i : Nat) (x : Cache) : (setCache s i x).ctr = s.ctr := rfl
@[simp] theorem setCache_mgmt (s : State) (i : Nat) (x : Cache) : (setCache s i x).mgmt = s.mgmt := rfl
@[simp] theorem setCache_power (s : State) (i : Nat) (x : Cache) : (setCache s i x).power = s.power := rfl
@[simp] theorem setCache_recov (s : State) (i : Nat) (x : Cache) : (setCache s i x).recov = s.recov := rfl
@[simp] theorem setMig_pending (s : State) (i : Nat) (m : Option Migration) : (setMig s i m).pending = s.pending := rfl
@[simp] theorem setMig_sys (s : State) (i : Nat) (m : Option Migration) : (setMig s i m).sys = s.sys := rfl
@[simp] theorem setMig_objs (s : State) (i : Nat) (m : Option Migration) : (setMig s i m).objs = s.objs := rfl
@[simp] theorem setMig_selects (s : State) (i : Nat) (m : Option Migration) : (setMig s i m).selects = s.selects := rfl
@[simp] theorem setMig_quartz (s : State) (i : Nat) (m : Option Migration) : (setMig s i m).quartz = s.quartz := rfl
@[simp] theorem setMig_net (s : State) (i : Nat) (m : Option Migration) : (setMig s i m).net = s.net := rfl
@[simp] theorem setMig_work (s : State) (i : Nat) (m : Option Migration) : (setMig s i m).work = s.work := rfl
@[simp] theorem setMig_ctxs (s : State) (i : Nat) (m : Option Migration) : (setMig s i m).ctxs = s.ctxs := rfl
@[simp] theorem setMig_grid (s : State) (i : Nat) (m : Option Migration) : (setMig s i m).grid = s.grid := rfl
@[simp] theorem setMig_chim (s : State) (i : Nat) (m : Option Migration) : (setMig s i m).chim = s.chim := rfl
@[simp] theorem setMig_flue (s : State) (i : Nat) (m : Option Migration) : (setMig s i m).flue = s.flue := rfl
@[simp] theorem setMig_ctr (s : State) (i : Nat) (m : Option Migration) : (setMig s i m).ctr = s.ctr := rfl
@[simp] theorem setMig_mgmt (s : State) (i : Nat) (m : Option Migration) : (setMig s i m).mgmt = s.mgmt := rfl
@[simp] theorem setMig_power (s : State) (i : Nat) (m : Option Migration) : (setMig s i m).power = s.power := rfl
@[simp] theorem setMig_recov (s : State) (i : Nat) (m : Option Migration) : (setMig s i m).recov = s.recov := rfl
@[simp] theorem setRegion_pending (s : State) (r : Nat) (v : BitVec 256) : (setRegion s r v).pending = s.pending := rfl
@[simp] theorem setRegion_sys (s : State) (r : Nat) (v : BitVec 256) : (setRegion s r v).sys = s.sys := rfl
@[simp] theorem setRegion_objs (s : State) (r : Nat) (v : BitVec 256) : (setRegion s r v).objs = s.objs := rfl
@[simp] theorem setRegion_selects (s : State) (r : Nat) (v : BitVec 256) : (setRegion s r v).selects = s.selects := rfl
@[simp] theorem setRegion_quartz (s : State) (r : Nat) (v : BitVec 256) : (setRegion s r v).quartz = s.quartz := rfl
@[simp] theorem setRegion_net (s : State) (r : Nat) (v : BitVec 256) : (setRegion s r v).net = s.net := rfl
@[simp] theorem setRegion_work (s : State) (r : Nat) (v : BitVec 256) : (setRegion s r v).work = s.work := rfl
@[simp] theorem setRegion_ctxs (s : State) (r : Nat) (v : BitVec 256) : (setRegion s r v).ctxs = s.ctxs := rfl
@[simp] theorem setRegion_grid (s : State) (r : Nat) (v : BitVec 256) : (setRegion s r v).grid = s.grid := rfl
@[simp] theorem setRegion_chim (s : State) (r : Nat) (v : BitVec 256) : (setRegion s r v).chim = s.chim := rfl
@[simp] theorem setRegion_flue (s : State) (r : Nat) (v : BitVec 256) : (setRegion s r v).flue = s.flue := rfl
@[simp] theorem setRegion_ctr (s : State) (r : Nat) (v : BitVec 256) : (setRegion s r v).ctr = s.ctr := rfl
@[simp] theorem setRegion_mgmt (s : State) (r : Nat) (v : BitVec 256) : (setRegion s r v).mgmt = s.mgmt := rfl
@[simp] theorem setRegion_power (s : State) (r : Nat) (v : BitVec 256) : (setRegion s r v).power = s.power := rfl
@[simp] theorem setRegion_recov (s : State) (r : Nat) (v : BitVec 256) : (setRegion s r v).recov = s.recov := rfl
@[simp] theorem setStep_pending (s : State) (k : Nat) (x : Option OStep) : (setStep s k x).pending = s.pending := rfl
@[simp] theorem setStep_sys (s : State) (k : Nat) (x : Option OStep) : (setStep s k x).sys = s.sys := rfl
@[simp] theorem setStep_objs (s : State) (k : Nat) (x : Option OStep) : (setStep s k x).objs = s.objs := rfl
@[simp] theorem setStep_selects (s : State) (k : Nat) (x : Option OStep) : (setStep s k x).selects = s.selects := rfl
@[simp] theorem setStep_quartz (s : State) (k : Nat) (x : Option OStep) : (setStep s k x).quartz = s.quartz := rfl
@[simp] theorem setStep_net (s : State) (k : Nat) (x : Option OStep) : (setStep s k x).net = s.net := rfl
@[simp] theorem setStep_work (s : State) (k : Nat) (x : Option OStep) : (setStep s k x).work = s.work := rfl
@[simp] theorem setStep_ctxs (s : State) (k : Nat) (x : Option OStep) : (setStep s k x).ctxs = s.ctxs := rfl
@[simp] theorem setStep_grid (s : State) (k : Nat) (x : Option OStep) : (setStep s k x).grid = s.grid := rfl
@[simp] theorem setStep_chim (s : State) (k : Nat) (x : Option OStep) : (setStep s k x).chim = s.chim := rfl
@[simp] theorem setStep_flue (s : State) (k : Nat) (x : Option OStep) : (setStep s k x).flue = s.flue := rfl
@[simp] theorem setStep_ctr (s : State) (k : Nat) (x : Option OStep) : (setStep s k x).ctr = s.ctr := rfl
@[simp] theorem setStep_mgmt (s : State) (k : Nat) (x : Option OStep) : (setStep s k x).mgmt = s.mgmt := rfl
@[simp] theorem setStep_power (s : State) (k : Nat) (x : Option OStep) : (setStep s k x).power = s.power := rfl
@[simp] theorem setStep_recov (s : State) (k : Nat) (x : Option OStep) : (setStep s k x).recov = s.recov := rfl
@[simp] theorem setHslot_pending (s : State) (k : Nat) (x : Option HSlot) : (setHslot s k x).pending = s.pending := rfl
@[simp] theorem setHslot_sys (s : State) (k : Nat) (x : Option HSlot) : (setHslot s k x).sys = s.sys := rfl
@[simp] theorem setHslot_objs (s : State) (k : Nat) (x : Option HSlot) : (setHslot s k x).objs = s.objs := rfl
@[simp] theorem setHslot_selects (s : State) (k : Nat) (x : Option HSlot) : (setHslot s k x).selects = s.selects := rfl
@[simp] theorem setHslot_quartz (s : State) (k : Nat) (x : Option HSlot) : (setHslot s k x).quartz = s.quartz := rfl
@[simp] theorem setHslot_net (s : State) (k : Nat) (x : Option HSlot) : (setHslot s k x).net = s.net := rfl
@[simp] theorem setHslot_work (s : State) (k : Nat) (x : Option HSlot) : (setHslot s k x).work = s.work := rfl
@[simp] theorem setHslot_ctxs (s : State) (k : Nat) (x : Option HSlot) : (setHslot s k x).ctxs = s.ctxs := rfl
@[simp] theorem setHslot_store (s : State) (k : Nat) (x : Option HSlot) : (setHslot s k x).store = s.store := rfl
@[simp] theorem setHslot_chim (s : State) (k : Nat) (x : Option HSlot) : (setHslot s k x).chim = s.chim := rfl
@[simp] theorem setHslot_flue (s : State) (k : Nat) (x : Option HSlot) : (setHslot s k x).flue = s.flue := rfl
@[simp] theorem setHslot_ctr (s : State) (k : Nat) (x : Option HSlot) : (setHslot s k x).ctr = s.ctr := rfl
@[simp] theorem setHslot_mgmt (s : State) (k : Nat) (x : Option HSlot) : (setHslot s k x).mgmt = s.mgmt := rfl
@[simp] theorem setHslot_power (s : State) (k : Nat) (x : Option HSlot) : (setHslot s k x).power = s.power := rfl
@[simp] theorem setHslot_recov (s : State) (k : Nat) (x : Option HSlot) : (setHslot s k x).recov = s.recov := rfl
@[simp] theorem setPulse_pending (s : State) (k : Nat) (x : Pulse) : (setPulse s k x).pending = s.pending := rfl
@[simp] theorem setPulse_sys (s : State) (k : Nat) (x : Pulse) : (setPulse s k x).sys = s.sys := rfl
@[simp] theorem setPulse_objs (s : State) (k : Nat) (x : Pulse) : (setPulse s k x).objs = s.objs := rfl
@[simp] theorem setPulse_selects (s : State) (k : Nat) (x : Pulse) : (setPulse s k x).selects = s.selects := rfl
@[simp] theorem setPulse_net (s : State) (k : Nat) (x : Pulse) : (setPulse s k x).net = s.net := rfl
@[simp] theorem setPulse_work (s : State) (k : Nat) (x : Pulse) : (setPulse s k x).work = s.work := rfl
@[simp] theorem setPulse_ctxs (s : State) (k : Nat) (x : Pulse) : (setPulse s k x).ctxs = s.ctxs := rfl
@[simp] theorem setPulse_store (s : State) (k : Nat) (x : Pulse) : (setPulse s k x).store = s.store := rfl
@[simp] theorem setPulse_grid (s : State) (k : Nat) (x : Pulse) : (setPulse s k x).grid = s.grid := rfl
@[simp] theorem setPulse_chim (s : State) (k : Nat) (x : Pulse) : (setPulse s k x).chim = s.chim := rfl
@[simp] theorem setPulse_flue (s : State) (k : Nat) (x : Pulse) : (setPulse s k x).flue = s.flue := rfl
@[simp] theorem setPulse_ctr (s : State) (k : Nat) (x : Pulse) : (setPulse s k x).ctr = s.ctr := rfl
@[simp] theorem setPulse_mgmt (s : State) (k : Nat) (x : Pulse) : (setPulse s k x).mgmt = s.mgmt := rfl
@[simp] theorem setPulse_power (s : State) (k : Nat) (x : Pulse) : (setPulse s k x).power = s.power := rfl
@[simp] theorem setPulse_recov (s : State) (k : Nat) (x : Pulse) : (setPulse s k x).recov = s.recov := rfl
@[simp] theorem setPtp_pending (s : State) (n : Nat) (x : Ptp) : (setPtp s n x).pending = s.pending := rfl
@[simp] theorem setPtp_sys (s : State) (n : Nat) (x : Ptp) : (setPtp s n x).sys = s.sys := rfl
@[simp] theorem setPtp_objs (s : State) (n : Nat) (x : Ptp) : (setPtp s n x).objs = s.objs := rfl
@[simp] theorem setPtp_selects (s : State) (n : Nat) (x : Ptp) : (setPtp s n x).selects = s.selects := rfl
@[simp] theorem setPtp_net (s : State) (n : Nat) (x : Ptp) : (setPtp s n x).net = s.net := rfl
@[simp] theorem setPtp_work (s : State) (n : Nat) (x : Ptp) : (setPtp s n x).work = s.work := rfl
@[simp] theorem setPtp_ctxs (s : State) (n : Nat) (x : Ptp) : (setPtp s n x).ctxs = s.ctxs := rfl
@[simp] theorem setPtp_store (s : State) (n : Nat) (x : Ptp) : (setPtp s n x).store = s.store := rfl
@[simp] theorem setPtp_grid (s : State) (n : Nat) (x : Ptp) : (setPtp s n x).grid = s.grid := rfl
@[simp] theorem setPtp_chim (s : State) (n : Nat) (x : Ptp) : (setPtp s n x).chim = s.chim := rfl
@[simp] theorem setPtp_flue (s : State) (n : Nat) (x : Ptp) : (setPtp s n x).flue = s.flue := rfl
@[simp] theorem setPtp_ctr (s : State) (n : Nat) (x : Ptp) : (setPtp s n x).ctr = s.ctr := rfl
@[simp] theorem setPtp_mgmt (s : State) (n : Nat) (x : Ptp) : (setPtp s n x).mgmt = s.mgmt := rfl
@[simp] theorem setPtp_power (s : State) (n : Nat) (x : Ptp) : (setPtp s n x).power = s.power := rfl
@[simp] theorem setPtp_recov (s : State) (n : Nat) (x : Ptp) : (setPtp s n x).recov = s.recov := rfl
@[simp] theorem setCapture_pending (s : State) (k : Nat) (x : Capture) : (setCapture s k x).pending = s.pending := rfl
@[simp] theorem setCapture_sys (s : State) (k : Nat) (x : Capture) : (setCapture s k x).sys = s.sys := rfl
@[simp] theorem setCapture_objs (s : State) (k : Nat) (x : Capture) : (setCapture s k x).objs = s.objs := rfl
@[simp] theorem setCapture_selects (s : State) (k : Nat) (x : Capture) : (setCapture s k x).selects = s.selects := rfl
@[simp] theorem setCapture_net (s : State) (k : Nat) (x : Capture) : (setCapture s k x).net = s.net := rfl
@[simp] theorem setCapture_work (s : State) (k : Nat) (x : Capture) : (setCapture s k x).work = s.work := rfl
@[simp] theorem setCapture_ctxs (s : State) (k : Nat) (x : Capture) : (setCapture s k x).ctxs = s.ctxs := rfl
@[simp] theorem setCapture_store (s : State) (k : Nat) (x : Capture) : (setCapture s k x).store = s.store := rfl
@[simp] theorem setCapture_grid (s : State) (k : Nat) (x : Capture) : (setCapture s k x).grid = s.grid := rfl
@[simp] theorem setCapture_chim (s : State) (k : Nat) (x : Capture) : (setCapture s k x).chim = s.chim := rfl
@[simp] theorem setCapture_flue (s : State) (k : Nat) (x : Capture) : (setCapture s k x).flue = s.flue := rfl
@[simp] theorem setCapture_ctr (s : State) (k : Nat) (x : Capture) : (setCapture s k x).ctr = s.ctr := rfl
@[simp] theorem setCapture_mgmt (s : State) (k : Nat) (x : Capture) : (setCapture s k x).mgmt = s.mgmt := rfl
@[simp] theorem setCapture_power (s : State) (k : Nat) (x : Capture) : (setCapture s k x).power = s.power := rfl
@[simp] theorem setCapture_recov (s : State) (k : Nat) (x : Capture) : (setCapture s k x).recov = s.recov := rfl
@[simp] theorem setChan_pending (s : State) (f : Nat) (x : Chan) : (setChan s f x).pending = s.pending := rfl
@[simp] theorem setChan_sys (s : State) (f : Nat) (x : Chan) : (setChan s f x).sys = s.sys := rfl
@[simp] theorem setChan_objs (s : State) (f : Nat) (x : Chan) : (setChan s f x).objs = s.objs := rfl
@[simp] theorem setChan_selects (s : State) (f : Nat) (x : Chan) : (setChan s f x).selects = s.selects := rfl
@[simp] theorem setChan_quartz (s : State) (f : Nat) (x : Chan) : (setChan s f x).quartz = s.quartz := rfl
@[simp] theorem setChan_net (s : State) (f : Nat) (x : Chan) : (setChan s f x).net = s.net := rfl
@[simp] theorem setChan_work (s : State) (f : Nat) (x : Chan) : (setChan s f x).work = s.work := rfl
@[simp] theorem setChan_ctxs (s : State) (f : Nat) (x : Chan) : (setChan s f x).ctxs = s.ctxs := rfl
@[simp] theorem setChan_store (s : State) (f : Nat) (x : Chan) : (setChan s f x).store = s.store := rfl
@[simp] theorem setChan_grid (s : State) (f : Nat) (x : Chan) : (setChan s f x).grid = s.grid := rfl
@[simp] theorem setChan_chim (s : State) (f : Nat) (x : Chan) : (setChan s f x).chim = s.chim := rfl
@[simp] theorem setChan_ctr (s : State) (f : Nat) (x : Chan) : (setChan s f x).ctr = s.ctr := rfl
@[simp] theorem setChan_mgmt (s : State) (f : Nat) (x : Chan) : (setChan s f x).mgmt = s.mgmt := rfl
@[simp] theorem setChan_power (s : State) (f : Nat) (x : Chan) : (setChan s f x).power = s.power := rfl
@[simp] theorem setChan_recov (s : State) (f : Nat) (x : Chan) : (setChan s f x).recov = s.recov := rfl
@[simp] theorem setAsh_pending (s : State) (k : Nat) (x : Dump) : (setAsh s k x).pending = s.pending := rfl
@[simp] theorem setAsh_sys (s : State) (k : Nat) (x : Dump) : (setAsh s k x).sys = s.sys := rfl
@[simp] theorem setAsh_objs (s : State) (k : Nat) (x : Dump) : (setAsh s k x).objs = s.objs := rfl
@[simp] theorem setAsh_selects (s : State) (k : Nat) (x : Dump) : (setAsh s k x).selects = s.selects := rfl
@[simp] theorem setAsh_quartz (s : State) (k : Nat) (x : Dump) : (setAsh s k x).quartz = s.quartz := rfl
@[simp] theorem setAsh_net (s : State) (k : Nat) (x : Dump) : (setAsh s k x).net = s.net := rfl
@[simp] theorem setAsh_work (s : State) (k : Nat) (x : Dump) : (setAsh s k x).work = s.work := rfl
@[simp] theorem setAsh_ctxs (s : State) (k : Nat) (x : Dump) : (setAsh s k x).ctxs = s.ctxs := rfl
@[simp] theorem setAsh_store (s : State) (k : Nat) (x : Dump) : (setAsh s k x).store = s.store := rfl
@[simp] theorem setAsh_grid (s : State) (k : Nat) (x : Dump) : (setAsh s k x).grid = s.grid := rfl
@[simp] theorem setAsh_chim (s : State) (k : Nat) (x : Dump) : (setAsh s k x).chim = s.chim := rfl
@[simp] theorem setAsh_flue (s : State) (k : Nat) (x : Dump) : (setAsh s k x).flue = s.flue := rfl
@[simp] theorem setAsh_ctr (s : State) (k : Nat) (x : Dump) : (setAsh s k x).ctr = s.ctr := rfl
@[simp] theorem setAsh_mgmt (s : State) (k : Nat) (x : Dump) : (setAsh s k x).mgmt = s.mgmt := rfl
@[simp] theorem setAsh_power (s : State) (k : Nat) (x : Dump) : (setAsh s k x).power = s.power := rfl
@[simp] theorem progress_pending (s : State) (c e : Nat) : (progress s c e).pending = s.pending := rfl
@[simp] theorem progress_sys (s : State) (c e : Nat) : (progress s c e).sys = s.sys := rfl
@[simp] theorem progress_selects (s : State) (c e : Nat) : (progress s c e).selects = s.selects := rfl
@[simp] theorem progress_quartz (s : State) (c e : Nat) : (progress s c e).quartz = s.quartz := rfl
@[simp] theorem progress_net (s : State) (c e : Nat) : (progress s c e).net = s.net := rfl
@[simp] theorem progress_work (s : State) (c e : Nat) : (progress s c e).work = s.work := rfl
@[simp] theorem progress_ctxs (s : State) (c e : Nat) : (progress s c e).ctxs = s.ctxs := rfl
@[simp] theorem progress_store (s : State) (c e : Nat) : (progress s c e).store = s.store := rfl
@[simp] theorem progress_grid (s : State) (c e : Nat) : (progress s c e).grid = s.grid := rfl
@[simp] theorem progress_chim (s : State) (c e : Nat) : (progress s c e).chim = s.chim := rfl
@[simp] theorem progress_flue (s : State) (c e : Nat) : (progress s c e).flue = s.flue := rfl
@[simp] theorem progress_ctr (s : State) (c e : Nat) : (progress s c e).ctr = s.ctr := rfl
@[simp] theorem progress_mgmt (s : State) (c e : Nat) : (progress s c e).mgmt = s.mgmt := rfl
@[simp] theorem progress_power (s : State) (c e : Nat) : (progress s c e).power = s.power := rfl
@[simp] theorem progress_recov (s : State) (c e : Nat) : (progress s c e).recov = s.recov := rfl
@[simp] theorem setTap_pending (s : State) (code : Byte) : (setTap s code).pending = s.pending := rfl
@[simp] theorem setTap_sys (s : State) (code : Byte) : (setTap s code).sys = s.sys := rfl
@[simp] theorem setTap_objs (s : State) (code : Byte) : (setTap s code).objs = s.objs := rfl
@[simp] theorem setTap_selects (s : State) (code : Byte) : (setTap s code).selects = s.selects := rfl
@[simp] theorem setTap_quartz (s : State) (code : Byte) : (setTap s code).quartz = s.quartz := rfl
@[simp] theorem setTap_net (s : State) (code : Byte) : (setTap s code).net = s.net := rfl
@[simp] theorem setTap_work (s : State) (code : Byte) : (setTap s code).work = s.work := rfl
@[simp] theorem setTap_ctxs (s : State) (code : Byte) : (setTap s code).ctxs = s.ctxs := rfl
@[simp] theorem setTap_store (s : State) (code : Byte) : (setTap s code).store = s.store := rfl
@[simp] theorem setTap_grid (s : State) (code : Byte) : (setTap s code).grid = s.grid := rfl
@[simp] theorem setTap_chim (s : State) (code : Byte) : (setTap s code).chim = s.chim := rfl
@[simp] theorem setTap_flue (s : State) (code : Byte) : (setTap s code).flue = s.flue := rfl
@[simp] theorem setTap_ctr (s : State) (code : Byte) : (setTap s code).ctr = s.ctr := rfl
@[simp] theorem setTap_power (s : State) (code : Byte) : (setTap s code).power = s.power := rfl
@[simp] theorem setTap_recov (s : State) (code : Byte) : (setTap s code).recov = s.recov := rfl
@[simp] theorem setSnap_pending (s : State) (p : Path) (x : Option (Nat × Nat × Bytes)) : (setSnap s p x).pending = s.pending := rfl
@[simp] theorem setSnap_sys (s : State) (p : Path) (x : Option (Nat × Nat × Bytes)) : (setSnap s p x).sys = s.sys := rfl
@[simp] theorem setSnap_objs (s : State) (p : Path) (x : Option (Nat × Nat × Bytes)) : (setSnap s p x).objs = s.objs := rfl
@[simp] theorem setSnap_selects (s : State) (p : Path) (x : Option (Nat × Nat × Bytes)) : (setSnap s p x).selects = s.selects := rfl
@[simp] theorem setSnap_quartz (s : State) (p : Path) (x : Option (Nat × Nat × Bytes)) : (setSnap s p x).quartz = s.quartz := rfl
@[simp] theorem setSnap_net (s : State) (p : Path) (x : Option (Nat × Nat × Bytes)) : (setSnap s p x).net = s.net := rfl
@[simp] theorem setSnap_work (s : State) (p : Path) (x : Option (Nat × Nat × Bytes)) : (setSnap s p x).work = s.work := rfl
@[simp] theorem setSnap_ctxs (s : State) (p : Path) (x : Option (Nat × Nat × Bytes)) : (setSnap s p x).ctxs = s.ctxs := rfl
@[simp] theorem setSnap_store (s : State) (p : Path) (x : Option (Nat × Nat × Bytes)) : (setSnap s p x).store = s.store := rfl
@[simp] theorem setSnap_grid (s : State) (p : Path) (x : Option (Nat × Nat × Bytes)) : (setSnap s p x).grid = s.grid := rfl
@[simp] theorem setSnap_chim (s : State) (p : Path) (x : Option (Nat × Nat × Bytes)) : (setSnap s p x).chim = s.chim := rfl
@[simp] theorem setSnap_flue (s : State) (p : Path) (x : Option (Nat × Nat × Bytes)) : (setSnap s p x).flue = s.flue := rfl
@[simp] theorem setSnap_ctr (s : State) (p : Path) (x : Option (Nat × Nat × Bytes)) : (setSnap s p x).ctr = s.ctr := rfl
@[simp] theorem setSnap_power (s : State) (p : Path) (x : Option (Nat × Nat × Bytes)) : (setSnap s p x).power = s.power := rfl
@[simp] theorem setSnap_recov (s : State) (p : Path) (x : Option (Nat × Nat × Bytes)) : (setSnap s p x).recov = s.recov := rfl
/-! ### Registers -/

theorem tabGet_tabSet_ne {α : Type} [DecidableEq α] (d e : α) (t : Tab α) (k : Nat) (v : α) (j : Nat) (h : j ≠ k) :
    tabGet e (tabSet d t k v) j = tabGet e t j := by
  have gp (t : Tab α) : tabGet e (tabPut t k v) j = tabGet e t j := by rw [tabGet_tabPut, if_neg h]
  unfold tabSet
  split
  · induction t with
    | nil => rfl
    | cons x t ih =>
      simp only [tabErase]
      split
      · rename_i hx; rw [ih]; simp only [tabGet]; rw [if_neg (by omega)]
      · simp only [tabGet, ih]
  · exact gp t

theorem objKey_inj {i sub j sub' : Nat} (h : sub < 256) (h' : sub' < 256) : objKey i sub = objKey j sub' ↔ i = j ∧ sub = sub' := by
  unfold objKey; omega

@[simp] theorem reg_setReg_self (s : State) (i sub d v : Nat) : reg (setReg s i sub d v) i sub d = v := by simp [reg, setReg]

theorem reg_setReg_ne (s : State) (i sub d v j sub' e : Nat) (h : objKey j sub' ≠ objKey i sub) :
    reg (setReg s i sub d v) j sub' e = reg s j sub' e := tabGet_tabSet_ne d e _ _ _ _ h

@[simp] theorem val_put_self (s : State) (i sub v : Nat) : val (put s i sub v) i sub = v := by simp [val, put]

theorem val_put_ne (s : State) (i sub v j sub' : Nat) (h : objKey j sub' ≠ objKey i sub) :
    val (put s i sub v) j sub' = val s j sub' := reg_setReg_ne s i sub _ v j sub' _ h

theorem reg_of_objs {s t : State} (h : t.objs = s.objs) (i sub d : Nat) : reg t i sub d = reg s i sub d := by simp [reg, h]

theorem val_of_objs {s t : State} (h : t.objs = s.objs) (i sub : Nat) : val t i sub = val s i sub := by simp [val, reg, h]

/-! ### The tables of each part -/

theorem ctxState_of_objs {s t : State} (h : t.objs = s.objs) (c : Nat) : ctxState t c = ctxState s c := by simp [ctxState, reg, h]

@[simp] theorem ctxState_setCtxState (s : State) (c : Nat) (t : CtxState) : ctxState (setCtxState s c t) c = t := by
  simp only [ctxState, setCtxState, reg_setReg_self]; cases t <;> rfl

@[simp] theorem ctxAt_setCtx (s : State) (c : Nat) (x : Ctx) (j : Nat) : ctxAt (setCtx s c x) j = if j = c then x else ctxAt s j := by
  simp [ctxAt, setCtx]

@[simp] theorem baseAt_setBase (s : State) (n : Nat) (b : Base) (j : Nat) : baseAt (setBase s n b) j = if j = n then b else baseAt s j := by
  simp [baseAt, setBase]

@[simp] theorem domAt_setDom (s : State) (d : Nat) (x : Domain) (j : Nat) : domAt (setDom s d x) j = if j = d then x else domAt s j := by
  unfold domAt setDom
  by_cases h : j = d
  · subst h; simp
  · rw [if_neg h]; exact tabGet_tabSet_ne _ _ _ _ _ _ h

@[simp] theorem portAt_setPort (s : State) (p : Nat) (x : Port) (j : Nat) : portAt (setPort s p x) j = if j = p then x else portAt s j := by
  simp [portAt, setPort]

@[simp] theorem ringAt_setRing (s : State) (r : Nat) (x : Ring) (j : Nat) : ringAt (setRing s r x) j = if j = r then x else ringAt s j := by
  simp [ringAt, setRing]

@[simp] theorem frameAt_setFrame (s : State) (f : Nat) (x : Frame) (j : Nat) :
    frameAt (setFrame s f x) j = if j = f then some x else frameAt s j := by simp [frameAt, setFrame]

@[simp] theorem msgAt_setMsg (s : State) (m : Nat) (x : Msg) (j : Nat) : msgAt (setMsg s m x) j = if j = m then some x else msgAt s j := by
  simp [msgAt, setMsg]

@[simp] theorem symbolAt_setSymbol (s : State) (k : Nat) (v : Option (Nat × BitVec 64 × Nat)) (j : Nat) :
    symbolAt (setSymbol s k v) j = if j = k then v else symbolAt s j := by simp [symbolAt, setSymbol]

@[simp] theorem rowAt_setRow (s : State) (i : Nat) (r : List (Nat × BitVec 64)) (j : Nat) :
    rowAt (setRow s i r) j = if j = i then r else rowAt s j := by simp [rowAt, setRow]

@[simp] theorem slotAt_setSlot (s : State) (i : Nat) (x : Slot) (j : Nat) : slotAt (setSlot s i x) j = if j = i then x else slotAt s j := by
  simp [slotAt, setSlot]

@[simp] theorem counterAt_setCounter (s : State) (k : Nat) (v : BitVec 64) (j : Nat) :
    counterAt (setCounter s k v) j = if j = k then v else counterAt s j := by simp [counterAt, setCounter]

@[simp] theorem replyAt_setReply (s : State) (r : Nat) (x : Reply) (j : Nat) :
    replyAt (setReply s r x) j = if j = r then some x else replyAt s j := by simp [replyAt, setReply]

@[simp] theorem tokensOf_setTokens (s : State) (k n j : Nat) : tokensOf (setTokens s k n) j = if j = k then n else tokensOf s j := by
  simp only [tokensOf, setTokens, tabGet_tabSet]; split <;> rfl

@[simp] theorem dirAt_setDir (s : State) (i : Nat) (d : Dir) (j : Nat) : dirAt (setDir s i d) j = if j = i then d else dirAt s j := by
  simp [dirAt, setDir]

@[simp] theorem cacheAt_setCache (s : State) (i : Nat) (x : Cache) (j : Nat) : cacheAt (setCache s i x) j = if j = i then x else cacheAt s j := by
  simp [cacheAt, setCache]

@[simp] theorem migAt_setMig (s : State) (i : Nat) (m : Option Migration) (j : Nat) : migAt (setMig s i m) j = if j = i then m else migAt s j := by
  simp [migAt, setMig]

@[simp] theorem regionAt_setRegion (s : State) (r : Nat) (v : BitVec 256) (j : Nat) :
    regionAt (setRegion s r v) j = if j = r then v else regionAt s j := by simp [regionAt, setRegion]

@[simp] theorem stepAt_setStep (s : State) (k : Nat) (x : Option OStep) (j : Nat) : stepAt (setStep s k x) j = if j = k then x else stepAt s j := by
  simp [stepAt, setStep]

@[simp] theorem hslot_setHslot (s : State) (k : Nat) (x : Option HSlot) (j : Nat) : hslot (setHslot s k x) j = if j = k then x else hslot s j := by
  simp [hslot, setHslot]

@[simp] theorem pulseAt_setPulse (s : State) (k : Nat) (x : Pulse) (j : Nat) : pulseAt (setPulse s k x) j = if j = k then x else pulseAt s j := by
  simp [pulseAt, setPulse]

@[simp] theorem ptpAt_setPtp (s : State) (n : Nat) (x : Ptp) (j : Nat) : ptpAt (setPtp s n x) j = if j = n then x else ptpAt s j := by
  simp [ptpAt, setPtp]

@[simp] theorem captureAt_setCapture (s : State) (k : Nat) (x : Capture) (j : Nat) :
    captureAt (setCapture s k x) j = if j = k then x else captureAt s j := by simp [captureAt, setCapture]

@[simp] theorem chanAt_setChan (s : State) (f : Nat) (x : Chan) (j : Nat) : chanAt (setChan s f x) j = if j = f then x else chanAt s j := by
  simp [chanAt, setChan]

@[simp] theorem ashAt_setAsh (s : State) (k : Nat) (x : Dump) (j : Nat) : ashAt (setAsh s k x) j = if j = k then x else ashAt s j := by
  simp [ashAt, setAsh]

@[simp] theorem xferOf_setXfer (s : State) (p : Path) (t : Option Transfer) (p' : Path) :
    xferOf (setXfer s p t) p' = if p' = p then t else xferOf s p' := by cases p <;> cases p' <;> simp [xferOf, setXfer]

@[simp] theorem selected_setSelected (s : State) (q : Requester) (i sub v : Nat) : selected (setSelected s q i sub v) q i sub = v := by
  cases q <;> simp [selected, setSelected, copyOf, grantAt]

@[simp] theorem ensAt_setEns (s : State) (c k : Nat) (x : EnsSlot) : ensAt (setEns s c k x) c k = x := by simp [ensAt, setEns]

@[simp] theorem rolloutAt_setRollout (s : State) (c k : Nat) (r : Rollout) : rolloutAt (setRollout s c k r) c k = r := by
  simp [rolloutAt, setRollout]

@[simp] theorem run_setRun (s : State) (c : Nat) (r : HRun) : (ctxAt (setRun s c r) c).run = r := by simp [setRun]

/-- What the block has put out is only ever added to. -/
@[simp] theorem emit_out (s : State) (o : Output) : (emit s o).sys.out = s.sys.out ++ [o] := rfl

@[simp] theorem emit_boot (s : State) (o : Output) : (emit s o).sys.boot = s.sys.boot := rfl

@[simp] theorem emit_keyHash (s : State) (o : Output) : (emit s o).sys.keyHash = s.sys.keyHash := rfl

@[simp] theorem respond_out (s : State) (q : Requester) (i sub : Nat) (a : BitVec 32) (d : Bytes) :
    (respond s q i sub a d).sys.out = s.sys.out ++ [.response q i sub a d] := rfl

@[simp] theorem setLedger_pending (s : State) (l : Ledger) : (setLedger s l).pending = s.pending := rfl
@[simp] theorem setLedger_sys (s : State) (l : Ledger) : (setLedger s l).sys = s.sys := rfl
@[simp] theorem setLedger_objs (s : State) (l : Ledger) : (setLedger s l).objs = s.objs := rfl
@[simp] theorem setLedger_selects (s : State) (l : Ledger) : (setLedger s l).selects = s.selects := rfl
@[simp] theorem setLedger_quartz (s : State) (l : Ledger) : (setLedger s l).quartz = s.quartz := rfl
@[simp] theorem setLedger_net (s : State) (l : Ledger) : (setLedger s l).net = s.net := rfl
@[simp] theorem setLedger_ctxs (s : State) (l : Ledger) : (setLedger s l).ctxs = s.ctxs := rfl
@[simp] theorem setLedger_store (s : State) (l : Ledger) : (setLedger s l).store = s.store := rfl
@[simp] theorem setLedger_grid (s : State) (l : Ledger) : (setLedger s l).grid = s.grid := rfl
@[simp] theorem setLedger_chim (s : State) (l : Ledger) : (setLedger s l).chim = s.chim := rfl
@[simp] theorem setLedger_flue (s : State) (l : Ledger) : (setLedger s l).flue = s.flue := rfl
@[simp] theorem setLedger_ctr (s : State) (l : Ledger) : (setLedger s l).ctr = s.ctr := rfl
@[simp] theorem setLedger_mgmt (s : State) (l : Ledger) : (setLedger s l).mgmt = s.mgmt := rfl
@[simp] theorem setLedger_power (s : State) (l : Ledger) : (setLedger s l).power = s.power := rfl
@[simp] theorem setLedger_recov (s : State) (l : Ledger) : (setLedger s l).recov = s.recov := rfl
@[simp] theorem setLane_pending (s : State) (f : Nat) (x : Frame) (ln : Lane) : (setLane s f x ln).pending = s.pending := rfl
@[simp] theorem setLane_sys (s : State) (f : Nat) (x : Frame) (ln : Lane) : (setLane s f x ln).sys = s.sys := rfl
@[simp] theorem setLane_objs (s : State) (f : Nat) (x : Frame) (ln : Lane) : (setLane s f x ln).objs = s.objs := rfl
@[simp] theorem setLane_selects (s : State) (f : Nat) (x : Frame) (ln : Lane) : (setLane s f x ln).selects = s.selects := rfl
@[simp] theorem setLane_quartz (s : State) (f : Nat) (x : Frame) (ln : Lane) : (setLane s f x ln).quartz = s.quartz := rfl
@[simp] theorem setLane_work (s : State) (f : Nat) (x : Frame) (ln : Lane) : (setLane s f x ln).work = s.work := rfl
@[simp] theorem setLane_ctxs (s : State) (f : Nat) (x : Frame) (ln : Lane) : (setLane s f x ln).ctxs = s.ctxs := rfl
@[simp] theorem setLane_store (s : State) (f : Nat) (x : Frame) (ln : Lane) : (setLane s f x ln).store = s.store := rfl
@[simp] theorem setLane_grid (s : State) (f : Nat) (x : Frame) (ln : Lane) : (setLane s f x ln).grid = s.grid := rfl
@[simp] theorem setLane_chim (s : State) (f : Nat) (x : Frame) (ln : Lane) : (setLane s f x ln).chim = s.chim := rfl
@[simp] theorem setLane_flue (s : State) (f : Nat) (x : Frame) (ln : Lane) : (setLane s f x ln).flue = s.flue := rfl
@[simp] theorem setLane_ctr (s : State) (f : Nat) (x : Frame) (ln : Lane) : (setLane s f x ln).ctr = s.ctr := rfl
@[simp] theorem setLane_mgmt (s : State) (f : Nat) (x : Frame) (ln : Lane) : (setLane s f x ln).mgmt = s.mgmt := rfl
@[simp] theorem setLane_power (s : State) (f : Nat) (x : Frame) (ln : Lane) : (setLane s f x ln).power = s.power := rfl
@[simp] theorem setLane_recov (s : State) (f : Nat) (x : Frame) (ln : Lane) : (setLane s f x ln).recov = s.recov := rfl
@[simp] theorem leaveGap_pending (s : State) (p n : Nat) : (leaveGap s p n).pending = s.pending := rfl
@[simp] theorem leaveGap_sys (s : State) (p n : Nat) : (leaveGap s p n).sys = s.sys := rfl
@[simp] theorem leaveGap_objs (s : State) (p n : Nat) : (leaveGap s p n).objs = s.objs := rfl
@[simp] theorem leaveGap_selects (s : State) (p n : Nat) : (leaveGap s p n).selects = s.selects := rfl
@[simp] theorem leaveGap_quartz (s : State) (p n : Nat) : (leaveGap s p n).quartz = s.quartz := rfl
@[simp] theorem leaveGap_work (s : State) (p n : Nat) : (leaveGap s p n).work = s.work := rfl
@[simp] theorem leaveGap_ctxs (s : State) (p n : Nat) : (leaveGap s p n).ctxs = s.ctxs := rfl
@[simp] theorem leaveGap_store (s : State) (p n : Nat) : (leaveGap s p n).store = s.store := rfl
@[simp] theorem leaveGap_grid (s : State) (p n : Nat) : (leaveGap s p n).grid = s.grid := rfl
@[simp] theorem leaveGap_chim (s : State) (p n : Nat) : (leaveGap s p n).chim = s.chim := rfl
@[simp] theorem leaveGap_flue (s : State) (p n : Nat) : (leaveGap s p n).flue = s.flue := rfl
@[simp] theorem leaveGap_ctr (s : State) (p n : Nat) : (leaveGap s p n).ctr = s.ctr := rfl
@[simp] theorem leaveGap_mgmt (s : State) (p n : Nat) : (leaveGap s p n).mgmt = s.mgmt := rfl
@[simp] theorem leaveGap_power (s : State) (p n : Nat) : (leaveGap s p n).power = s.power := rfl
@[simp] theorem leaveGap_recov (s : State) (p n : Nat) : (leaveGap s p n).recov = s.recov := rfl
@[simp] theorem spoilLines_pending (s : State) (ls : List Nat) : (spoilLines s ls).pending = s.pending := rfl
@[simp] theorem spoilLines_sys (s : State) (ls : List Nat) : (spoilLines s ls).sys = s.sys := rfl
@[simp] theorem spoilLines_objs (s : State) (ls : List Nat) : (spoilLines s ls).objs = s.objs := rfl
@[simp] theorem spoilLines_selects (s : State) (ls : List Nat) : (spoilLines s ls).selects = s.selects := rfl
@[simp] theorem spoilLines_quartz (s : State) (ls : List Nat) : (spoilLines s ls).quartz = s.quartz := rfl
@[simp] theorem spoilLines_net (s : State) (ls : List Nat) : (spoilLines s ls).net = s.net := rfl
@[simp] theorem spoilLines_work (s : State) (ls : List Nat) : (spoilLines s ls).work = s.work := rfl
@[simp] theorem spoilLines_ctxs (s : State) (ls : List Nat) : (spoilLines s ls).ctxs = s.ctxs := rfl
@[simp] theorem spoilLines_grid (s : State) (ls : List Nat) : (spoilLines s ls).grid = s.grid := rfl
@[simp] theorem spoilLines_chim (s : State) (ls : List Nat) : (spoilLines s ls).chim = s.chim := rfl
@[simp] theorem spoilLines_flue (s : State) (ls : List Nat) : (spoilLines s ls).flue = s.flue := rfl
@[simp] theorem spoilLines_ctr (s : State) (ls : List Nat) : (spoilLines s ls).ctr = s.ctr := rfl
@[simp] theorem spoilLines_mgmt (s : State) (ls : List Nat) : (spoilLines s ls).mgmt = s.mgmt := rfl
@[simp] theorem spoilLines_power (s : State) (ls : List Nat) : (spoilLines s ls).power = s.power := rfl
@[simp] theorem spoilLines_recov (s : State) (ls : List Nat) : (spoilLines s ls).recov = s.recov := rfl
@[simp] theorem setLedger_ledger (s : State) (l : Ledger) : (setLedger s l).work.ledger = l := rfl

end Sys2Proof.Machine
end

