-- ==== Sys2Proof/Laws/Ops.lean ====
section
/-! SUPPORT. What each shared operation can do, said once: the Soot log, EMCY, requests and reads, and byte order. -/

namespace Sys2Proof.Machine

/-! ### Byte order -/

theorem toLe_length (n v : Nat) : (toLe n v).length = n := by
  induction n generalizing v with
  | zero => rfl
  | succ n ih => simp [toLe, ih]

theorem leNat_toLe (n v : Nat) (h : v < 256 ^ n) : leNat (toLe n v) = v := by
  induction n generalizing v with
  | zero => simp at h; simp [toLe, leNat, h]
  | succ n ih =>
    have hq : v / 256 < 256 ^ n := by rw [Nat.pow_succ] at h; omega
    simp only [toLe, leNat, ih _ hq, BitVec.toNat_ofNat]
    omega

theorem leNat_byte (b : Byte) : leNat [b] = b.toNat := by simp [leNat]

theorem leNat_toLe64 (v : BitVec 64) : leNat (toLe 8 v.toNat) = v.toNat :=
  leNat_toLe 8 v.toNat (by have := v.isLt; omega)

theorem leNat_toLe32 (v : BitVec 32) : leNat (toLe 4 v.toNat) = v.toNat :=
  leNat_toLe 4 v.toNat (by have := v.isLt; omega)

theorem leNat_toLe16 (v : BitVec 16) : leNat (toLe 2 v.toNat) = v.toNat :=
  leNat_toLe 2 v.toNat (by have := v.isLt; omega)

theorem signed_toInt64 (v : BitVec 64) : signed 64 v.toNat = v.toInt := by
  have := v.isLt
  unfold signed BitVec.toInt
  have h : v.toNat % 2 ^ 64 = v.toNat := Nat.mod_eq_of_lt this
  rw [h]
  split <;> split <;> omega

/-! ### The Soot log changes the log and its two counters only -/

theorem sootPut_parts (s : State) (ev : Nat) (tag : Option (BitVec 14)) (a b : Nat) :
    ∃ r o, sootPut s ev tag a b = { s with recov := r, objs := o } := ⟨_, _, rfl⟩

theorem closeMillisecond_parts (s : State) : ∃ r o, closeMillisecond s = { s with recov := r, objs := o } := by
  have fold : ∀ (l : List ((BitVec 16 × Option Nat) × Nat × Nat)) (u : State), (∃ r o, u = { s with recov := r, objs := o }) →
      ∃ r o, l.foldl (fun (s : State) g =>
        if g.2.2 = 0 then s else sootPut s 0x2C08 (g.1.2.map fun c => ctxTag s c) g.1.1.toNat g.2.2) u
          = { s with recov := r, objs := o } := by
    intro l
    induction l with
    | nil => intro u h; exact h
    | cons g l ih =>
      rintro u ⟨r, o, rfl⟩
      refine ih _ ?_
      dsimp only
      split
      · exact ⟨r, o, rfl⟩
      · exact ⟨_, _, rfl⟩
  obtain ⟨r, o, h⟩ := fold s.recov.written.reverse { s with recov := { s.recov with written := [] } } ⟨_, _, rfl⟩
  unfold closeMillisecond
  simp only [h]
  exact ⟨_, _, rfl⟩

/-- A log entry changes the log, its counts and the registers 0x2C00:02 and :05, and nothing else. -/
theorem soot_parts (s : State) (ev : Nat) (tag : Option (BitVec 14)) (a b : Nat) :
    ∃ r o, soot s ev tag a b = { s with recov := r, objs := o } := by
  have tail : ∀ (u : State) (p : Prop) [Decidable p] (w w' : List ((BitVec 16 × Option Nat) × Nat × Nat)),
      (∃ r o, u = { s with recov := r, objs := o }) →
      ∃ r o, (if p then sootPut { u with recov := { u.recov with written := w } } ev tag a b
        else bump { u with recov := { u.recov with written := w' } } 0x2C00 5) = { s with recov := r, objs := o } := by
    rintro u p _ w w' ⟨r, o, rfl⟩
    split <;> exact ⟨_, _, rfl⟩
  unfold soot
  split
  · exact tail s _ _ _ ⟨_, _, rfl⟩
  · exact tail _ _ _ _ (closeMillisecond_parts s)

@[simp] theorem closeMillisecond_pending (s : State) : (closeMillisecond s).pending = s.pending := by obtain ⟨r, o, h⟩ := closeMillisecond_parts s; rw [h]
@[simp] theorem closeMillisecond_sys (s : State) : (closeMillisecond s).sys = s.sys := by obtain ⟨r, o, h⟩ := closeMillisecond_parts s; rw [h]
@[simp] theorem closeMillisecond_selects (s : State) : (closeMillisecond s).selects = s.selects := by obtain ⟨r, o, h⟩ := closeMillisecond_parts s; rw [h]
@[simp] theorem closeMillisecond_quartz (s : State) : (closeMillisecond s).quartz = s.quartz := by obtain ⟨r, o, h⟩ := closeMillisecond_parts s; rw [h]
@[simp] theorem closeMillisecond_net (s : State) : (closeMillisecond s).net = s.net := by obtain ⟨r, o, h⟩ := closeMillisecond_parts s; rw [h]
@[simp] theorem closeMillisecond_work (s : State) : (closeMillisecond s).work = s.work := by obtain ⟨r, o, h⟩ := closeMillisecond_parts s; rw [h]
@[simp] theorem closeMillisecond_ctxs (s : State) : (closeMillisecond s).ctxs = s.ctxs := by obtain ⟨r, o, h⟩ := closeMillisecond_parts s; rw [h]
@[simp] theorem closeMillisecond_store (s : State) : (closeMillisecond s).store = s.store := by obtain ⟨r, o, h⟩ := closeMillisecond_parts s; rw [h]
@[simp] theorem closeMillisecond_grid (s : State) : (closeMillisecond s).grid = s.grid := by obtain ⟨r, o, h⟩ := closeMillisecond_parts s; rw [h]
@[simp] theorem closeMillisecond_chim (s : State) : (closeMillisecond s).chim = s.chim := by obtain ⟨r, o, h⟩ := closeMillisecond_parts s; rw [h]
@[simp] theorem closeMillisecond_flue (s : State) : (closeMillisecond s).flue = s.flue := by obtain ⟨r, o, h⟩ := closeMillisecond_parts s; rw [h]
@[simp] theorem closeMillisecond_ctr (s : State) : (closeMillisecond s).ctr = s.ctr := by obtain ⟨r, o, h⟩ := closeMillisecond_parts s; rw [h]
@[simp] theorem closeMillisecond_mgmt (s : State) : (closeMillisecond s).mgmt = s.mgmt := by obtain ⟨r, o, h⟩ := closeMillisecond_parts s; rw [h]
@[simp] theorem closeMillisecond_power (s : State) : (closeMillisecond s).power = s.power := by obtain ⟨r, o, h⟩ := closeMillisecond_parts s; rw [h]
@[simp] theorem soot_pending (s : State) (ev : Nat) (tag : Option (BitVec 14)) (a b : Nat) : (soot s ev tag a b).pending = s.pending := by obtain ⟨r, o, h⟩ := soot_parts s ev tag a b; rw [h]
@[simp] theorem soot_sys (s : State) (ev : Nat) (tag : Option (BitVec 14)) (a b : Nat) : (soot s ev tag a b).sys = s.sys := by obtain ⟨r, o, h⟩ := soot_parts s ev tag a b; rw [h]
@[simp] theorem soot_selects (s : State) (ev : Nat) (tag : Option (BitVec 14)) (a b : Nat) : (soot s ev tag a b).selects = s.selects := by obtain ⟨r, o, h⟩ := soot_parts s ev tag a b; rw [h]
@[simp] theorem soot_quartz (s : State) (ev : Nat) (tag : Option (BitVec 14)) (a b : Nat) : (soot s ev tag a b).quartz = s.quartz := by obtain ⟨r, o, h⟩ := soot_parts s ev tag a b; rw [h]
@[simp] theorem soot_net (s : State) (ev : Nat) (tag : Option (BitVec 14)) (a b : Nat) : (soot s ev tag a b).net = s.net := by obtain ⟨r, o, h⟩ := soot_parts s ev tag a b; rw [h]
@[simp] theorem soot_work (s : State) (ev : Nat) (tag : Option (BitVec 14)) (a b : Nat) : (soot s ev tag a b).work = s.work := by obtain ⟨r, o, h⟩ := soot_parts s ev tag a b; rw [h]
@[simp] theorem soot_ctxs (s : State) (ev : Nat) (tag : Option (BitVec 14)) (a b : Nat) : (soot s ev tag a b).ctxs = s.ctxs := by obtain ⟨r, o, h⟩ := soot_parts s ev tag a b; rw [h]
@[simp] theorem soot_store (s : State) (ev : Nat) (tag : Option (BitVec 14)) (a b : Nat) : (soot s ev tag a b).store = s.store := by obtain ⟨r, o, h⟩ := soot_parts s ev tag a b; rw [h]
@[simp] theorem soot_grid (s : State) (ev : Nat) (tag : Option (BitVec 14)) (a b : Nat) : (soot s ev tag a b).grid = s.grid := by obtain ⟨r, o, h⟩ := soot_parts s ev tag a b; rw [h]
@[simp] theorem soot_chim (s : State) (ev : Nat) (tag : Option (BitVec 14)) (a b : Nat) : (soot s ev tag a b).chim = s.chim := by obtain ⟨r, o, h⟩ := soot_parts s ev tag a b; rw [h]
@[simp] theorem soot_flue (s : State) (ev : Nat) (tag : Option (BitVec 14)) (a b : Nat) : (soot s ev tag a b).flue = s.flue := by obtain ⟨r, o, h⟩ := soot_parts s ev tag a b; rw [h]
@[simp] theorem soot_ctr (s : State) (ev : Nat) (tag : Option (BitVec 14)) (a b : Nat) : (soot s ev tag a b).ctr = s.ctr := by obtain ⟨r, o, h⟩ := soot_parts s ev tag a b; rw [h]
@[simp] theorem soot_mgmt (s : State) (ev : Nat) (tag : Option (BitVec 14)) (a b : Nat) : (soot s ev tag a b).mgmt = s.mgmt := by obtain ⟨r, o, h⟩ := soot_parts s ev tag a b; rw [h]
@[simp] theorem soot_power (s : State) (ev : Nat) (tag : Option (BitVec 14)) (a b : Nat) : (soot s ev tag a b).power = s.power := by obtain ⟨r, o, h⟩ := soot_parts s ev tag a b; rw [h]
@[simp] theorem sootCtx_pending (s : State) (c ev a b : Nat) : (sootCtx s c ev a b).pending = s.pending := by unfold sootCtx; obtain ⟨r, o, h⟩ := soot_parts s ev (some (ctxTag s c)) a b; rw [h]
@[simp] theorem sootCtx_sys (s : State) (c ev a b : Nat) : (sootCtx s c ev a b).sys = s.sys := by unfold sootCtx; obtain ⟨r, o, h⟩ := soot_parts s ev (some (ctxTag s c)) a b; rw [h]
@[simp] theorem sootCtx_selects (s : State) (c ev a b : Nat) : (sootCtx s c ev a b).selects = s.selects := by unfold sootCtx; obtain ⟨r, o, h⟩ := soot_parts s ev (some (ctxTag s c)) a b; rw [h]
@[simp] theorem sootCtx_quartz (s : State) (c ev a b : Nat) : (sootCtx s c ev a b).quartz = s.quartz := by unfold sootCtx; obtain ⟨r, o, h⟩ := soot_parts s ev (some (ctxTag s c)) a b; rw [h]
@[simp] theorem sootCtx_net (s : State) (c ev a b : Nat) : (sootCtx s c ev a b).net = s.net := by unfold sootCtx; obtain ⟨r, o, h⟩ := soot_parts s ev (some (ctxTag s c)) a b; rw [h]
@[simp] theorem sootCtx_work (s : State) (c ev a b : Nat) : (sootCtx s c ev a b).work = s.work := by unfold sootCtx; obtain ⟨r, o, h⟩ := soot_parts s ev (some (ctxTag s c)) a b; rw [h]
@[simp] theorem sootCtx_ctxs (s : State) (c ev a b : Nat) : (sootCtx s c ev a b).ctxs = s.ctxs := by unfold sootCtx; obtain ⟨r, o, h⟩ := soot_parts s ev (some (ctxTag s c)) a b; rw [h]
@[simp] theorem sootCtx_store (s : State) (c ev a b : Nat) : (sootCtx s c ev a b).store = s.store := by unfold sootCtx; obtain ⟨r, o, h⟩ := soot_parts s ev (some (ctxTag s c)) a b; rw [h]
@[simp] theorem sootCtx_grid (s : State) (c ev a b : Nat) : (sootCtx s c ev a b).grid = s.grid := by unfold sootCtx; obtain ⟨r, o, h⟩ := soot_parts s ev (some (ctxTag s c)) a b; rw [h]
@[simp] theorem sootCtx_chim (s : State) (c ev a b : Nat) : (sootCtx s c ev a b).chim = s.chim := by unfold sootCtx; obtain ⟨r, o, h⟩ := soot_parts s ev (some (ctxTag s c)) a b; rw [h]
@[simp] theorem sootCtx_flue (s : State) (c ev a b : Nat) : (sootCtx s c ev a b).flue = s.flue := by unfold sootCtx; obtain ⟨r, o, h⟩ := soot_parts s ev (some (ctxTag s c)) a b; rw [h]
@[simp] theorem sootCtx_ctr (s : State) (c ev a b : Nat) : (sootCtx s c ev a b).ctr = s.ctr := by unfold sootCtx; obtain ⟨r, o, h⟩ := soot_parts s ev (some (ctxTag s c)) a b; rw [h]
@[simp] theorem sootCtx_mgmt (s : State) (c ev a b : Nat) : (sootCtx s c ev a b).mgmt = s.mgmt := by unfold sootCtx; obtain ⟨r, o, h⟩ := soot_parts s ev (some (ctxTag s c)) a b; rw [h]
@[simp] theorem sootCtx_power (s : State) (c ev a b : Nat) : (sootCtx s c ev a b).power = s.power := by unfold sootCtx; obtain ⟨r, o, h⟩ := soot_parts s ev (some (ctxTag s c)) a b; rw [h]

theorem reg_of_recov (s : State) (r : Recov) (i sub d : Nat) : reg { s with recov := r } i sub d = reg s i sub d := by simp only [reg]

theorem sootPut_reg (s : State) (ev : Nat) (tag : Option (BitVec 14)) (a b i sub d : Nat) (h : objKey i sub ≠ objKey 0x2C00 2) :
    reg (sootPut s ev tag a b) i sub d = reg s i sub d := by
  unfold sootPut
  rw [reg_setReg_ne _ _ _ _ _ _ _ _ h, reg_of_recov]

theorem closeMillisecond_reg (s : State) (i sub d : Nat) (h : objKey i sub ≠ objKey 0x2C00 2) :
    reg (closeMillisecond s) i sub d = reg s i sub d := by
  unfold closeMillisecond
  dsimp only
  rw [reg_of_recov]
  have fold : ∀ (l : List ((BitVec 16 × Option Nat) × Nat × Nat)) (u : State),
      reg (l.foldl (fun (s : State) g =>
        if g.2.2 = 0 then s else sootPut s 0x2C08 (g.1.2.map fun c => ctxTag s c) g.1.1.toNat g.2.2) u) i sub d = reg u i sub d := by
    intro l
    induction l with
    | nil => intro u; rw [List.foldl_nil]
    | cons g l ih =>
      intro u
      rw [List.foldl_cons, ih]
      split
      · rfl
      · exact sootPut_reg _ _ _ _ _ _ _ _ h
  rw [fold, reg_of_recov]

/-- A log entry leaves every register outside 0x2C00 as it was. -/
theorem soot_reg (s : State) (ev : Nat) (tag : Option (BitVec 14)) (a b i sub d : Nat) (h : objKey i sub ≠ objKey 0x2C00 2)
    (h' : objKey i sub ≠ objKey 0x2C00 5) : reg (soot s ev tag a b) i sub d = reg s i sub d := by
  unfold soot
  dsimp only
  have close := closeMillisecond_reg s i sub d h
  split <;> split
  · rw [sootPut_reg _ _ _ _ _ _ _ _ h, reg_of_recov]
  · unfold bump bumpBy
    rw [reg_setReg_ne _ _ _ _ _ _ _ _ h', reg_of_recov]
  · rw [sootPut_reg _ _ _ _ _ _ _ _ h, reg_of_recov, close]
  · unfold bump bumpBy
    rw [reg_setReg_ne _ _ _ _ _ _ _ _ h', reg_of_recov, close]

theorem soot_val (s : State) (ev : Nat) (tag : Option (BitVec 14)) (a b i sub : Nat) (h : objKey i sub ≠ objKey 0x2C00 2)
    (h' : objKey i sub ≠ objKey 0x2C00 5) : val (soot s ev tag a b) i sub = val s i sub := by
  unfold val
  exact soot_reg s ev tag a b i sub _ h h'

@[simp] theorem soot_ctxState (s : State) (ev : Nat) (tag : Option (BitVec 14)) (a b c : Nat) :
    ctxState (soot s ev tag a b) c = ctxState s c := by
  unfold ctxState
  rw [soot_reg] <;> (unfold objKey cb; omega)

/-! ### EMCY -/

/-- An EMCY event changes the management part and what is put out, and nothing else. -/
theorem emcy_parts (s : State) (code : Nat) (man : Bytes) :
    ∃ m out, emcy s code man = { s with mgmt := m, sys := { s.sys with out := out } } := by
  unfold emcy
  dsimp only
  split
  · exact ⟨_, s.sys.out, rfl⟩
  · split
    · split
      · exact ⟨_, s.sys.out, rfl⟩
      · exact ⟨_, s.sys.out, rfl⟩
    · exact ⟨_, _, rfl⟩

@[simp] theorem emcy_pending (s : State) (code : Nat) (man : Bytes) : (emcy s code man).pending = s.pending := by obtain ⟨m, o, h⟩ := emcy_parts s code man; rw [h]
@[simp] theorem emcy_objs (s : State) (code : Nat) (man : Bytes) : (emcy s code man).objs = s.objs := by obtain ⟨m, o, h⟩ := emcy_parts s code man; rw [h]
@[simp] theorem emcy_selects (s : State) (code : Nat) (man : Bytes) : (emcy s code man).selects = s.selects := by obtain ⟨m, o, h⟩ := emcy_parts s code man; rw [h]
@[simp] theorem emcy_quartz (s : State) (code : Nat) (man : Bytes) : (emcy s code man).quartz = s.quartz := by obtain ⟨m, o, h⟩ := emcy_parts s code man; rw [h]
@[simp] theorem emcy_net (s : State) (code : Nat) (man : Bytes) : (emcy s code man).net = s.net := by obtain ⟨m, o, h⟩ := emcy_parts s code man; rw [h]
@[simp] theorem emcy_work (s : State) (code : Nat) (man : Bytes) : (emcy s code man).work = s.work := by obtain ⟨m, o, h⟩ := emcy_parts s code man; rw [h]
@[simp] theorem emcy_ctxs (s : State) (code : Nat) (man : Bytes) : (emcy s code man).ctxs = s.ctxs := by obtain ⟨m, o, h⟩ := emcy_parts s code man; rw [h]
@[simp] theorem emcy_store (s : State) (code : Nat) (man : Bytes) : (emcy s code man).store = s.store := by obtain ⟨m, o, h⟩ := emcy_parts s code man; rw [h]
@[simp] theorem emcy_grid (s : State) (code : Nat) (man : Bytes) : (emcy s code man).grid = s.grid := by obtain ⟨m, o, h⟩ := emcy_parts s code man; rw [h]
@[simp] theorem emcy_chim (s : State) (code : Nat) (man : Bytes) : (emcy s code man).chim = s.chim := by obtain ⟨m, o, h⟩ := emcy_parts s code man; rw [h]
@[simp] theorem emcy_flue (s : State) (code : Nat) (man : Bytes) : (emcy s code man).flue = s.flue := by obtain ⟨m, o, h⟩ := emcy_parts s code man; rw [h]
@[simp] theorem emcy_ctr (s : State) (code : Nat) (man : Bytes) : (emcy s code man).ctr = s.ctr := by obtain ⟨m, o, h⟩ := emcy_parts s code man; rw [h]
@[simp] theorem emcy_power (s : State) (code : Nat) (man : Bytes) : (emcy s code man).power = s.power := by obtain ⟨m, o, h⟩ := emcy_parts s code man; rw [h]
@[simp] theorem emcy_recov (s : State) (code : Nat) (man : Bytes) : (emcy s code man).recov = s.recov := by obtain ⟨m, o, h⟩ := emcy_parts s code man; rw [h]

/-! ### Lines, retaken decisions and FEC -/

/-- Writing lines of local space only clears what was recorded of them. -/
theorem writeLines_parts (s : State) (a n : Nat) :
    ∃ ls, writeLines s a n = { s with store := { s.store with badLines := ls } } ∧ ∀ l, l ∈ ls → l ∈ s.store.badLines := by
  unfold writeLines
  split
  · exact ⟨s.store.badLines, rfl, fun _ h => h⟩
  · exact ⟨_, rfl, fun _ h => (List.mem_filter.1 h).1⟩

/-- A cache that is not local has no lines in local space. -/
theorem writeLocal_elsewhere {s : State} {i : Nat} (h : (dirAt s i).pl ≠ 1) (o n : Nat) : writeLocal s i o n = s := by
  simp [writeLocal, h]

/-- Noting a decision adds to those that may be taken again, and changes nothing else. -/
theorem noteTaken_parts (s : State) (m : Nat) (opened : Time) (before : Ledger) :
    ∃ xs, noteTaken s m opened before = { s with work := { s.work with taken := s.work.taken ++ xs } } := by
  unfold noteTaken
  split
  · exact ⟨[], by simp⟩
  · split
    · exact ⟨_, rfl⟩
    · exact ⟨[], by simp⟩

/-- A port without RS-FEC counts no codewords. -/
theorem countFec_off {s : State} {p : Nat} (h : (portAt s p).fec = false) (x : RxTail) : countFec s p x = s := by
  simp [countFec, h]

/-! ### Requests -/

section
variable {s t : State} {q : Requester} {i sub : Nat} {data : Bytes} {go : State → Ans}

/-- A request that passes the dictionary's checks and its object's own rules has their effect, and is answered with 0. -/
theorem request_ok (h : accepts s q i sub data) (hg : go s = .ok t) : request s q i sub data go = accepted s q i sub data t := by
  obtain ⟨h1, h2, h3⟩ := h
  simp [request, write, accepted, h1, h2, h3, hg]

/-- A request that its object's own rules refuse is answered with their code, and changes nothing else. -/
theorem request_error {a : BitVec 32} (h : accepts s q i sub data) (hg : go s = .error a) :
    request s q i sub data go = refusedWith s q i sub a := by
  obtain ⟨h1, h2, h3⟩ := h
  simp [request, write, refusedWith, h1, h2, h3, hg]

/-- A refusal that is itself recorded. -/
theorem request_errorIn {a : BitVec 32} (h : accepts s q i sub data) (hg : go s = .errorIn a t) :
    request s q i sub data go = refusedWith t q i sub a := by
  obtain ⟨h1, h2, h3⟩ := h
  simp [request, write, refusedWith, h1, h2, h3, hg]

/-- A request that is not heard has no effect. -/
theorem request_silent (h : heard s q = false) : request s q i sub data go = s := by simp [request, h]

/-- A read that the dictionary's checks pass. -/
theorem readRequest_ok {f : State → Bytes × State} (h : readable s q i sub) :
    readRequest s q i sub f = respond (f s).2 q i sub 0 (f s).1 := by
  obtain ⟨h1, h2⟩ := h
  simp [readRequest, h1, h2]

end

end Sys2Proof.Machine
end

