-- ==== Sys2Proof/Laws/PerInstr.lean ====
section
/-! SUPPORT. Which units of the block each command names, and that well-formedness says exactly that the block has them: one
lemma per command. -/

namespace Sys2Proof.Laws.Units

/-- A unit of the block by its kind and number. -/
inductive UnitRef where
  | site (n : Nat)
  | domain (n : Nat)
  | bank (n : Nat)
  | row (n : Nat)
  | gauge (n : Nat)
  | engine (n : Nat)
  deriving DecidableEq, Repr

/-- The block has the unit (R44, R308, R329, R335, R481, R544). -/
def inBlock : UnitRef → Prop
  | .site n => n < 48 * 64
  | .domain n => n < 36
  | .bank n => n < 6
  | .row n => n < 8192
  | .gauge n => n < 96
  | .engine n => 1 ≤ n ∧ n ≤ 5

/-- The units a command names by number. -/
def unitsOf (i : Instr) : List UnitRef :=
  match i with
  | .mul x | .add x | .sub x | .dot x | .acc x | .imul x | .cmp x | .sel x | .drop x | .steer x | .merge x | .plog x
  | .logic x | .shift x | .iadd x | .minmax x | .cvt x | .idx x | .rep x | .exp x | .log x | .recip x | .rsqrt x
  | .sqrt x | .tanh x | .sigmoid x | .silu x | .gelu x | .tab x | .ldstRead x | .ldstWrite x | .rmw x | .stream x
  | .stb x | .fin x | .cout x | .flo x | .fli x | .kwait x | .kinc x | .siteRetire x => [.site x.toNat]
  | .purgeTimeout _ e d => [.engine e.toNat, .domain d]
  | .hangDetect _ e => [.engine e.toNat]
  | .partitionCycleDone d _ _ => [.domain d]
  | .supplyEvaluation d => [.domain d]
  | .thermalTrip d => [.domain d]
  | .domainTransitionDone d _ => [.domain d]
  | .gateDelayExpired d => [.domain d]
  | .gaugeWindow g _ => [.gauge g]
  | .droopFlag g _ => [.gauge g]
  | .spareRowReplace b r => [.bank b, .row r.row]
  | .bankRetire b => [.bank b]
  | _ => []

/-- A command is well-formed exactly when the block has every unit it names. -/
def Statement (i : Instr) : Prop := i.wf = true ↔ ∀ x, x ∈ unitsOf i → inBlock x

/-- A command that names no unit is well-formed. -/
theorem of_none {i : Instr} (h : unitsOf i = []) (w : i.wf = true) : Statement i :=
  ⟨fun _ x hx => by simp [h] at hx, fun _ => w⟩

/-- A command at a site is well-formed where the site is one of the grid's. -/
theorem of_site {i : Instr} {x : BitVec 12} (h : unitsOf i = [.site x.toNat]) (w : i.wf = siteOk x.toNat) : Statement i := by
  simp [Statement, h, w, siteOk, inBlock]

/-- A command at a domain is well-formed where the domain is one of the block's. -/
theorem of_domain {i : Instr} {d : Nat} (h : unitsOf i = [.domain d]) (w : i.wf = domainOk d) : Statement i := by
  simp [Statement, h, w, domainOk, inBlock]

/-- A command at a gauge is well-formed where the gauge is one of the block's. -/
theorem of_gauge {i : Instr} {g : Nat} (h : unitsOf i = [.gauge g]) (w : i.wf = gaugeOk g) : Statement i := by
  simp [Statement, h, w, gaugeOk, inBlock]

theorem load (x0 : _) (x1 : _) : Statement (.load x0 x1) := of_none rfl rfl

theorem loadComplete (x0 : _) (x1 : _) (x2 : _) : Statement (.loadComplete x0 x1 x2) := of_none rfl rfl

theorem openContext (x0 : _) (x1 : _) : Statement (.openContext x0 x1) := of_none rfl rfl

theorem closeContext (x0 : _) (x1 : _) : Statement (.closeContext x0 x1) := of_none rfl rfl

theorem recover (x0 : _) (x1 : _) : Statement (.recover x0 x1) := of_none rfl rfl

theorem unload (x0 : _) (x1 : _) : Statement (.unload x0 x1) := of_none rfl rfl

theorem unloadComplete (x0 : _) : Statement (.unloadComplete x0) := of_none rfl rfl

theorem generationAdvance (x0 : _) : Statement (.generationAdvance x0) := of_none rfl rfl

theorem purgeComplete (x0 : _) : Statement (.purgeComplete x0) := of_none rfl rfl

theorem purgeTimeout (x0 : _) (x1 : _) (x2 : _) : Statement (.purgeTimeout x0 x1 x2) := by
  simp [Statement, unitsOf, show Instr.wf (.purgeTimeout x0 x1 x2) = (engineOk x1 && domainOk x2) from rfl, engineOk, domainOk,
    inBlock]

theorem partitionCycleDone (x0 : _) (x1 : _) (x2 : _) : Statement (.partitionCycleDone x0 x1 x2) := of_domain rfl rfl

theorem recoveryComplete (x0 : _) : Statement (.recoveryComplete x0) := of_none rfl rfl

theorem hangDetect (x0 : _) (x1 : _) : Statement (.hangDetect x0 x1) := by
  simp [Statement, unitsOf, show Instr.wf (.hangDetect x0 x1) = engineOk x1 from rfl, engineOk, inBlock]

theorem portModeWrite (x0 : _) (x1 : _) (x2 : _) : Statement (.portModeWrite x0 x1 x2) := of_none rfl rfl

theorem restartLink (x0 : _) (x1 : _) : Statement (.restartLink x0 x1) := of_none rfl rfl

theorem linkUp (x0 : _) (x1 : _) (x2 : _) : Statement (.linkUp x0 x1 x2) := of_none rfl rfl

theorem linkDown (x0 : _) : Statement (.linkDown x0) := of_none rfl rfl

theorem linkTrainingTimeout (x0 : _) : Statement (.linkTrainingTimeout x0) := of_none rfl rfl

theorem rxFrameStart (x0 : _) (x1 : _) (x2 : _) : Statement (.rxFrameStart x0 x1 x2) := of_none rfl rfl

theorem filterDecided (x0 : _) (x1 : _) : Statement (.filterDecided x0 x1) := of_none rfl rfl

theorem rxFrameEnd (x0 : _) (x1 : _) (x2 : _) : Statement (.rxFrameEnd x0 x1 x2) := of_none rfl rfl

theorem rxOversize (x0 : _) (x1 : _) : Statement (.rxOversize x0 x1) := of_none rfl rfl

theorem rxAbort (x0 : _) (x1 : _) : Statement (.rxAbort x0 x1) := of_none rfl rfl

theorem macVerdict (x0 : _) : Statement (.macVerdict x0) := of_none rfl rfl

theorem effectiveVerdict (x0 : _) : Statement (.effectiveVerdict x0) := of_none rfl rfl

theorem symbolLookup (x0 : _) (x1 : _) : Statement (.symbolLookup x0 x1) := of_none rfl rfl

theorem decisionPoint (x0 : _) (x1 : _) : Statement (.decisionPoint x0 x1) := of_none rfl rfl

theorem stateAccess (x0 : _) (x1 : _) : Statement (.stateAccess x0 x1) := of_none rfl rfl

theorem stateClear (x0 : _) (x1 : _) (x2 : _) : Statement (.stateClear x0 x1 x2) := of_none rfl rfl

theorem oldSweep : Statement .oldSweep := of_none rfl rfl

theorem ringChainDue (x0 : _) (x1 : _) : Statement (.ringChainDue x0 x1) := of_none rfl rfl

theorem ringChainWrite (x0 : _) (x1 : _) (x2 : _) : Statement (.ringChainWrite x0 x1 x2) := of_none rfl rfl

theorem ringNotifyTimer (x0 : _) : Statement (.ringNotifyTimer x0) := of_none rfl rfl

theorem ringTailWrite (x0 : _) (x1 : _) (x2 : _) : Statement (.ringTailWrite x0 x1 x2) := of_none rfl rfl

theorem ringConfigWrite (x0 : _) (x1 : _) (x2 : _) (x3 : _) : Statement (.ringConfigWrite x0 x1 x2 x3) := of_none rfl rfl

theorem filterEntryWrite (x0 : _) (x1 : _) (x2 : _) : Statement (.filterEntryWrite x0 x1 x2) := of_none rfl rfl

theorem txFrameStart (x0 : _) (x1 : _) : Statement (.txFrameStart x0 x1) := of_none rfl rfl

theorem txFrameDone (x0 : _) : Statement (.txFrameDone x0) := of_none rfl rfl

theorem gateEntryAdvance (x0 : _) : Statement (.gateEntryAdvance x0) := of_none rfl rfl

theorem configChange (x0 : _) (x1 : _) (x2 : _) : Statement (.configChange x0 x1 x2) := of_none rfl rfl

theorem configChangeApply (x0 : _) : Statement (.configChangeApply x0) := of_none rfl rfl

theorem preemptionVerifyTimer (x0 : _) : Statement (.preemptionVerifyTimer x0) := of_none rfl rfl

theorem verifyResponse (x0 : _) (x1 : _) : Statement (.verifyResponse x0 x1) := of_none rfl rfl

theorem baseWrap (x0 : _) : Statement (.baseWrap x0) := of_none rfl rfl

theorem epochIncrement (x0 : _) : Statement (.epochIncrement x0) := of_none rfl rfl

theorem rateWrite (x0 : _) (x1 : _) (x2 : _) : Statement (.rateWrite x0 x1 x2) := of_none rfl rfl

theorem referenceLost (x0 : _) : Statement (.referenceLost x0) := of_none rfl rfl

theorem referenceLocked (x0 : _) : Statement (.referenceLocked x0) := of_none rfl rfl

theorem sessionArm (x0 : _) (x1 : _) : Statement (.sessionArm x0 x1) := of_none rfl rfl

theorem sessionEnd (x0 : _) (x1 : _) : Statement (.sessionEnd x0 x1) := of_none rfl rfl

theorem step (x0 : _) (x1 : _) (x2 : _) : Statement (.step x0 x1 x2) := of_none rfl rfl

theorem setTime (x0 : _) (x1 : _) (x2 : _) : Statement (.setTime x0 x1 x2) := of_none rfl rfl

theorem stepApply (x0 : _) : Statement (.stepApply x0) := of_none rfl rfl

theorem ptpMessageRx (x0 : _) (x1 : _) : Statement (.ptpMessageRx x0 x1) := of_none rfl rfl

theorem ptpIntervalTimer (x0 : _) (x1 : _) (x2 : _) : Statement (.ptpIntervalTimer x0 x1 x2) := of_none rfl rfl

theorem announceReceiptTimeout (x0 : _) (x1 : _) : Statement (.announceReceiptTimeout x0 x1) := of_none rfl rfl

theorem ptpRoleWrite (x0 : _) (x1 : _) (x2 : _) : Statement (.ptpRoleWrite x0 x1 x2) := of_none rfl rfl

theorem pulseModeWrite (x0 : _) (x1 : _) (x2 : _) : Statement (.pulseModeWrite x0 x1 x2) := of_none rfl rfl

theorem pulseEdge (x0 : _) : Statement (.pulseEdge x0) := of_none rfl rfl

theorem pulseWidthEnd (x0 : _) : Statement (.pulseWidthEnd x0) := of_none rfl rfl

theorem captureEdge (x0 : _) (x1 : _) : Statement (.captureEdge x0 x1) := of_none rfl rfl

theorem nextStamp (x0 : _) (x1 : _) : Statement (.nextStamp x0 x1) := of_none rfl rfl

theorem extendedTimeRead (x0 : _) (x1 : _) : Statement (.extendedTimeRead x0 x1) := of_none rfl rfl

theorem symbolInsert (x0 : _) (x1 : _) (x2 : _) (x3 : _) : Statement (.symbolInsert x0 x1 x2 x3) := of_none rfl rfl

theorem symbolRemove (x0 : _) (x1 : _) (x2 : _) : Statement (.symbolRemove x0 x1 x2) := of_none rfl rfl

theorem opalEventIssue (x0 : _) : Statement (.opalEventIssue x0) := of_none rfl rfl

theorem opalStepStart (x0 : _) (x1 : _) (x2 : _) : Statement (.opalStepStart x0 x1 x2) := of_none rfl rfl

theorem slotPublish (x0 : _) : Statement (.slotPublish x0) := of_none rfl rfl

theorem sequenceUpdate (x0 : _) : Statement (.sequenceUpdate x0) := of_none rfl rfl

theorem weightLoad (x0 : _) (x1 : _) (x2 : _) : Statement (.weightLoad x0 x1 x2) := of_none rfl rfl

theorem weightSwitch (x0 : _) (x1 : _) : Statement (.weightSwitch x0 x1) := of_none rfl rfl

theorem weightDiscard (x0 : _) (x1 : _) : Statement (.weightDiscard x0 x1) := of_none rfl rfl

theorem weightError (x0 : _) (x1 : _) : Statement (.weightError x0 x1) := of_none rfl rfl

theorem weightRewriteDone (x0 : _) (x1 : _) : Statement (.weightRewriteDone x0 x1) := of_none rfl rfl

theorem laneRetire (x0 : _) : Statement (.laneRetire x0) := of_none rfl rfl

theorem rolloutRequest (x0 : _) (x1 : _) (x2 : _) : Statement (.rolloutRequest x0 x1 x2) := of_none rfl rfl

theorem rolloutStep (x0 : _) (x1 : _) : Statement (.rolloutStep x0 x1) := of_none rfl rfl

theorem rolloutStatusRead (x0 : _) (x1 : _) : Statement (.rolloutStatusRead x0 x1) := of_none rfl rfl

theorem migrate (x0 : _) (x1 : _) (x2 : _) : Statement (.migrate x0 x1 x2) := of_none rfl rfl

theorem migrateCopyDone (x0 : _) : Statement (.migrateCopyDone x0) := of_none rfl rfl

theorem migrateLock (x0 : _) : Statement (.migrateLock x0) := of_none rfl rfl

theorem migrateSwitch (x0 : _) : Statement (.migrateSwitch x0) := of_none rfl rfl

theorem migrateRelease (x0 : _) : Statement (.migrateRelease x0) := of_none rfl rfl

theorem regionDescriptorWrite (x0 : _) (x1 : _) (x2 : _) : Statement (.regionDescriptorWrite x0 x1 x2) := of_none rfl rfl

theorem regionUnfence (x0 : _) : Statement (.regionUnfence x0) := of_none rfl rfl

theorem localQuotaWrite (x0 : _) (x1 : _) (x2 : _) : Statement (.localQuotaWrite x0 x1 x2) := of_none rfl rfl

theorem remoteWriteFailure (x0 : _) (x1 : _) (x2 : _) : Statement (.remoteWriteFailure x0 x1 x2) := of_none rfl rfl

theorem spareRowReplace (x0 : _) (x1 : _) : Statement (.spareRowReplace x0 x1) := by
  simp [Statement, unitsOf, show Instr.wf (.spareRowReplace x0 x1) = (bankOk x0 && decide (x1.row < 8192)) from rfl, bankOk, inBlock]

theorem bankRetire (x0 : _) : Statement (.bankRetire x0) := by
  simp [Statement, unitsOf, show Instr.wf (.bankRetire x0) = bankOk x0 from rfl, bankOk, inBlock]

theorem ensembleLoad (x0 : _) (x1 : _) (x2 : _) : Statement (.ensembleLoad x0 x1 x2) := of_none rfl rfl

theorem ensembleFree (x0 : _) (x1 : _) : Statement (.ensembleFree x0 x1) := of_none rfl rfl

theorem programSwitch (x0 : _) (x1 : _) (x2 : _) : Statement (.programSwitch x0 x1 x2) := of_none rfl rfl

theorem garnetPass (x0 : _) : Statement (.garnetPass x0) := of_none rfl rfl

theorem treeDecision (x0 : _) : Statement (.treeDecision x0) := of_none rfl rfl

theorem treeMemoryError (x0 : _) (x1 : _) (x2 : _) (x3 : _) : Statement (.treeMemoryError x0 x1 x2 x3) := of_none rfl rfl

theorem treeReloadDone (x0 : _) (x1 : _) : Statement (.treeReloadDone x0 x1) := of_none rfl rfl

theorem sliceRetire (x0 : _) : Statement (.sliceRetire x0) := of_none rfl rfl

theorem relayoutDone (x0 : _) (x1 : _) : Statement (.relayoutDone x0 x1) := of_none rfl rfl

theorem mul (x0 : _) : Statement (.mul x0) := of_site rfl rfl

theorem add (x0 : _) : Statement (.add x0) := of_site rfl rfl

theorem sub (x0 : _) : Statement (.sub x0) := of_site rfl rfl

theorem dot (x0 : _) : Statement (.dot x0) := of_site rfl rfl

theorem acc (x0 : _) : Statement (.acc x0) := of_site rfl rfl

theorem imul (x0 : _) : Statement (.imul x0) := of_site rfl rfl

theorem cmp (x0 : _) : Statement (.cmp x0) := of_site rfl rfl

theorem sel (x0 : _) : Statement (.sel x0) := of_site rfl rfl

theorem drop (x0 : _) : Statement (.drop x0) := of_site rfl rfl

theorem steer (x0 : _) : Statement (.steer x0) := of_site rfl rfl

theorem merge (x0 : _) : Statement (.merge x0) := of_site rfl rfl

theorem plog (x0 : _) : Statement (.plog x0) := of_site rfl rfl

theorem logic (x0 : _) : Statement (.logic x0) := of_site rfl rfl

theorem shift (x0 : _) : Statement (.shift x0) := of_site rfl rfl

theorem iadd (x0 : _) : Statement (.iadd x0) := of_site rfl rfl

theorem minmax (x0 : _) : Statement (.minmax x0) := of_site rfl rfl

theorem cvt (x0 : _) : Statement (.cvt x0) := of_site rfl rfl

theorem idx (x0 : _) : Statement (.idx x0) := of_site rfl rfl

theorem rep (x0 : _) : Statement (.rep x0) := of_site rfl rfl

theorem exp (x0 : _) : Statement (.exp x0) := of_site rfl rfl

theorem log (x0 : _) : Statement (.log x0) := of_site rfl rfl

theorem recip (x0 : _) : Statement (.recip x0) := of_site rfl rfl

theorem rsqrt (x0 : _) : Statement (.rsqrt x0) := of_site rfl rfl

theorem sqrt (x0 : _) : Statement (.sqrt x0) := of_site rfl rfl

theorem tanh (x0 : _) : Statement (.tanh x0) := of_site rfl rfl

theorem sigmoid (x0 : _) : Statement (.sigmoid x0) := of_site rfl rfl

theorem silu (x0 : _) : Statement (.silu x0) := of_site rfl rfl

theorem gelu (x0 : _) : Statement (.gelu x0) := of_site rfl rfl

theorem tab (x0 : _) : Statement (.tab x0) := of_site rfl rfl

theorem ldstRead (x0 : _) : Statement (.ldstRead x0) := of_site rfl rfl

theorem ldstWrite (x0 : _) : Statement (.ldstWrite x0) := of_site rfl rfl

theorem rmw (x0 : _) : Statement (.rmw x0) := of_site rfl rfl

theorem stream (x0 : _) : Statement (.stream x0) := of_site rfl rfl

theorem stb (x0 : _) : Statement (.stb x0) := of_site rfl rfl

theorem fin (x0 : _) : Statement (.fin x0) := of_site rfl rfl

theorem cout (x0 : _) : Statement (.cout x0) := of_site rfl rfl

theorem flo (x0 : _) : Statement (.flo x0) := of_site rfl rfl

theorem fli (x0 : _) : Statement (.fli x0) := of_site rfl rfl

theorem kwait (x0 : _) : Statement (.kwait x0) := of_site rfl rfl

theorem kinc (x0 : _) : Statement (.kinc x0) := of_site rfl rfl

theorem deadlockDetect (x0 : _) : Statement (.deadlockDetect x0) := of_none rfl rfl

theorem configurationLoad (x0 : _) (x1 : _) (x2 : _) (x3 : _) : Statement (.configurationLoad x0 x1 x2 x3) := of_none rfl rfl

theorem configurationFree (x0 : _) (x1 : _) : Statement (.configurationFree x0 x1) := of_none rfl rfl

theorem drainSwap (x0 : _) (x1 : _) : Statement (.drainSwap x0 x1) := of_none rfl rfl

theorem cutSwap (x0 : _) (x1 : _) : Statement (.cutSwap x0 x1) := of_none rfl rfl

theorem swapDrainEnd (x0 : _) : Statement (.swapDrainEnd x0) := of_none rfl rfl

theorem swapSwitchDone (x0 : _) : Statement (.swapSwitchDone x0) := of_none rfl rfl

theorem queueSample : Statement .queueSample := of_none rfl rfl

theorem histogramClear (x0 : _) (x1 : _) (x2 : _) : Statement (.histogramClear x0 x1 x2) := of_none rfl rfl

theorem siteRetire (x0 : _) : Statement (.siteRetire x0) := of_site rfl rfl

theorem recordIntake (x0 : _) : Statement (.recordIntake x0) := of_none rfl rfl

theorem waitLineRelease (x0 : _) (x1 : _) : Statement (.waitLineRelease x0 x1) := of_none rfl rfl

theorem counterWaitExpired (x0 : _) (x1 : _) : Statement (.counterWaitExpired x0 x1) := of_none rfl rfl

theorem replyRelease (x0 : _) : Statement (.replyRelease x0) := of_none rfl rfl

theorem releaseDeadlineMiss (x0 : _) : Statement (.releaseDeadlineMiss x0) := of_none rfl rfl

theorem commitPoint (x0 : _) : Statement (.commitPoint x0) := of_none rfl rfl

theorem replyEnd (x0 : _) : Statement (.replyEnd x0) := of_none rfl rfl

theorem txUnderrun (x0 : _) : Statement (.txUnderrun x0) := of_none rfl rfl

theorem bucketRefill (x0 : _) (x1 : _) : Statement (.bucketRefill x0 x1) := of_none rfl rfl

theorem globalKill (x0 : _) (x1 : _) : Statement (.globalKill x0 x1) := of_none rfl rfl

theorem contextKill (x0 : _) (x1 : _) (x2 : _) : Statement (.contextKill x0 x1 x2) := of_none rfl rfl

theorem sessionKill (x0 : _) (x1 : _) (x2 : _) : Statement (.sessionKill x0 x1 x2) := of_none rfl rfl

theorem sessionOpen (x0 : _) (x1 : _) : Statement (.sessionOpen x0 x1) := of_none rfl rfl

theorem sessionResume (x0 : _) (x1 : _) : Statement (.sessionResume x0 x1) := of_none rfl rfl

theorem sessionClose (x0 : _) (x1 : _) : Statement (.sessionClose x0 x1) := of_none rfl rfl

theorem resendReleaseWrite (x0 : _) (x1 : _) (x2 : _) : Statement (.resendReleaseWrite x0 x1 x2) := of_none rfl rfl

theorem templateError (x0 : _) (x1 : _) : Statement (.templateError x0 x1) := of_none rfl rfl

theorem channelTrainingDone (x0 : _) : Statement (.channelTrainingDone x0) := of_none rfl rfl

theorem channelTrainingTimeout (x0 : _) : Statement (.channelTrainingTimeout x0) := of_none rfl rfl

theorem linkControlFlit (x0 : _) (x1 : _) : Statement (.linkControlFlit x0 x1) := of_none rfl rfl

theorem statusFlitTimer (x0 : _) : Statement (.statusFlitTimer x0) := of_none rfl rfl

theorem crcError (x0 : _) (x1 : _) : Statement (.crcError x0 x1) := of_none rfl rfl

theorem replayTimeout (x0 : _) : Statement (.replayTimeout x0) := of_none rfl rfl

theorem requestLifetimeExpired (x0 : _) (x1 : _) : Statement (.requestLifetimeExpired x0 x1) := of_none rfl rfl

theorem rd (x0 : _) (x1 : _) : Statement (.rd x0 x1) := of_none rfl rfl

theorem wr (x0 : _) (x1 : _) : Statement (.wr x0 x1) := of_none rfl rfl

theorem brd (x0 : _) (x1 : _) : Statement (.brd x0 x1) := of_none rfl rfl

theorem probe (x0 : _) (x1 : _) : Statement (.probe x0 x1) := of_none rfl rfl

theorem rdData (x0 : _) (x1 : _) : Statement (.rdData x0 x1) := of_none rfl rfl

theorem wrAck (x0 : _) (x1 : _) : Statement (.wrAck x0 x1) := of_none rfl rfl

theorem probeAck (x0 : _) (x1 : _) (x2 : _) : Statement (.probeAck x0 x1 x2) := of_none rfl rfl

theorem doorbell (x0 : _) (x1 : _) : Statement (.doorbell x0 x1) := of_none rfl rfl

theorem htok (x0 : _) (x1 : _) : Statement (.htok x0 x1) := of_none rfl rfl

theorem hcred (x0 : _) (x1 : _) : Statement (.hcred x0 x1) := of_none rfl rfl

theorem beacon (x0 : _) (x1 : _) : Statement (.beacon x0 x1) := of_none rfl rfl

theorem faultBeaconLine (x0 : _) : Statement (.faultBeaconLine x0) := of_none rfl rfl

theorem reachabilityProbe : Statement .reachabilityProbe := of_none rfl rfl

theorem increment (x0 : _) (x1 : _) (x2 : _) : Statement (.increment x0 x1 x2) := of_none rfl rfl

theorem handSet (x0 : _) (x1 : _) : Statement (.handSet x0 x1) := of_none rfl rfl

theorem counterUpdate : Statement .counterUpdate := of_none rfl rfl

theorem gaugeWindow (x0 : _) (x1 : _) : Statement (.gaugeWindow x0 x1) := of_gauge rfl rfl

theorem droopFlag (x0 : _) (x1 : _) : Statement (.droopFlag x0 x1) := of_gauge rfl rfl

theorem supplyEvaluation (x0 : _) : Statement (.supplyEvaluation x0) := of_domain rfl rfl

theorem thermalRead (x0 : _) : Statement (.thermalRead x0) := of_none rfl rfl

theorem thermalTrip (x0 : _) : Statement (.thermalTrip x0) := of_domain rfl rfl

theorem powerSample (x0 : _) (x1 : _) : Statement (.powerSample x0 x1) := of_none rfl rfl

theorem domainOn (x0 : _) : Statement (.domainOn x0) := of_none rfl rfl

theorem domainBank (x0 : _) : Statement (.domainBank x0) := of_none rfl rfl

theorem domainCold (x0 : _) : Statement (.domainCold x0) := of_none rfl rfl

theorem domainTransitionDone (x0 : _) (x1 : _) : Statement (.domainTransitionDone x0 x1) := of_domain rfl rfl

theorem gateDelayExpired (x0 : _) : Statement (.gateDelayExpired x0) := of_domain rfl rfl

theorem watchdogExpired : Statement .watchdogExpired := of_none rfl rfl

theorem stokerFault : Statement .stokerFault := of_none rfl rfl

theorem warmReset (x0 : _) : Statement (.warmReset x0) := of_none rfl rfl

theorem warmResetWithUpdate (x0 : _) (x1 : _) : Statement (.warmResetWithUpdate x0 x1) := of_none rfl rfl

theorem blkRst (x0 : _) : Statement (.blkRst x0) := of_none rfl rfl

theorem powerOn (x0 : _) (x1 : _) (x2 : _) (x3 : _) : Statement (.powerOn x0 x1 x2 x3) := of_none rfl rfl

theorem powerLoss (x0 : _) : Statement (.powerLoss x0) := of_none rfl rfl

theorem warmSequence (x0 : _) (x1 : _) (x2 : _) : Statement (.warmSequence x0 x1 x2) := of_none rfl rfl

theorem dumpRelease (x0 : _) (x1 : _) : Statement (.dumpRelease x0 x1) := of_none rfl rfl

theorem logMillisecondEnd : Statement .logMillisecondEnd := of_none rfl rfl

theorem pValueStoreDone (x0 : _) : Statement (.pValueStoreDone x0) := of_none rfl rfl

theorem startRemoteNode (x0 : _) : Statement (.startRemoteNode x0) := of_none rfl rfl

theorem stopRemoteNode (x0 : _) : Statement (.stopRemoteNode x0) := of_none rfl rfl

theorem enterPreOperational (x0 : _) : Statement (.enterPreOperational x0) := of_none rfl rfl

theorem resetNode (x0 : _) : Statement (.resetNode x0) := of_none rfl rfl

theorem resetCommunication (x0 : _) : Statement (.resetCommunication x0) := of_none rfl rfl

theorem heartbeatTimer : Statement .heartbeatTimer := of_none rfl rfl

theorem emcyInhibitEnd : Statement .emcyInhibitEnd := of_none rfl rfl

theorem usdoUpload (x0 : _) (x1 : _) (x2 : _) (x3 : _) : Statement (.usdoUpload x0 x1 x2 x3) := of_none rfl rfl

theorem usdoDownload (x0 : _) (x1 : _) (x2 : _) (x3 : _) (x4 : _) : Statement (.usdoDownload x0 x1 x2 x3 x4) := of_none rfl rfl

theorem usdoAbort (x0 : _) : Statement (.usdoAbort x0) := of_none rfl rfl

theorem transferTimeout (x0 : _) : Statement (.transferTimeout x0) := of_none rfl rfl

theorem mailboxUpload (x0 : _) (x1 : _) : Statement (.mailboxUpload x0 x1) := of_none rfl rfl

theorem mailboxDownload (x0 : _) (x1 : _) (x2 : _) : Statement (.mailboxDownload x0 x1 x2) := of_none rfl rfl

theorem mailboxAbort (x0 : _) (x1 : _) : Statement (.mailboxAbort x0 x1) := of_none rfl rfl

theorem uploadSnapshotTimeout : Statement .uploadSnapshotTimeout := of_none rfl rfl

theorem lockWaitTimeout (x0 : _) : Statement (.lockWaitTimeout x0) := of_none rfl rfl

theorem idcode : Statement .idcode := of_none rfl rfl

theorem tapMbox (x0 : _) (x1 : _) : Statement (.tapMbox x0 x1) := of_none rfl rfl

theorem bypass (x0 : _) : Statement (.bypass x0) := of_none rfl rfl

theorem tapReset (x0 : _) : Statement (.tapReset x0) := of_none rfl rfl

theorem grantWrite (x0 : _) (x1 : _) : Statement (.grantWrite x0 x1) := of_none rfl rfl

theorem fragmentVerified (x0 : _) : Statement (.fragmentVerified x0) := of_none rfl rfl

theorem objectWrite (x0 : _) (x1 : _) (x2 : _) (x3 : _) (x4 : _) : Statement (.objectWrite x0 x1 x2 x3 x4) := of_none rfl rfl

theorem channelLinkLost (x0 : _) : Statement (.channelLinkLost x0) := of_none rfl rfl

theorem localRelayoutDone : Statement .localRelayoutDone := of_none rfl rfl

theorem templateRewriteDone (x0 : _) (x1 : _) : Statement (.templateRewriteDone x0 x1) := of_none rfl rfl

theorem firmwareContainerReceived (x0 : _) : Statement (.firmwareContainerReceived x0) := of_none rfl rfl

end Sys2Proof.Laws.Units
end

