-- ==== Sys2Proof/Tests/Slice0.lean ====
section
/-! SUPPORT. Tests on small states: an ill-formed command for each check of well-formedness, a concrete state and operands that
meet the hypotheses of each statement, and expected results that the spec states. -/

section
set_option Elab.async false
open Sys2Proof Sys2Proof.Machine

/-! ### States to test on -/

/-- The block running, every domain On and reopened, CAN Operational, channel 0 Up. -/
def tRun : State :=
  let s := State.reset
  let s := { s with sys := { s.sys with boot := .running }, mgmt := { s.mgmt with nmt := .operational } }
  let s := { s with flue := { s.flue with chans := tabSet Chan.reset [] 0 { Chan.reset with state := .up, x := 1, y := 2 } } }
  (List.range 35).foldl (fun s d => setDom s d { domDefault d with state := .on, vdd := 750, open_ := true }) s

/-- Context 3 in a state, with record `x`. -/
def tCtx (st : CtxState) (x : Ctx) : State := setCtxState (setCtx tRun 3 x) 3 st

/-- A teardown in a phase. -/
def tTd (p : Phase) : Teardown :=
  { phase := p, t0 := 0, cause := 0x0201, genOld := 0, unloadNext := false, dump := 0, logSeq := 1, depths := [],
    bookings := [], began := 0, escalations := [] }

/-- An image with nothing in it. -/
def tImage : Image :=
  { id := 7, kb := 1, ranges := [], filters := [], layouts := [], feat := { slots := [], feats := [], events := [], edges := [], raw := [] },
    progs := [], ensembles := [], opal := none, hearth := none, chim := { templates := [], sessmask := 0, rent := 0, raw := [] },
    counters := none }

/-- Whether a computation succeeds with a result of which `p` holds. -/
def tOk {α β : Type} (x : Except α β) (p : β → Bool) : Bool := match x with | .ok v => p v | .error _ => false

/-- What an outcome's next state satisfies. -/
def tNext (x : Host.Outcome State Fault Refusal) (p : State → Bool) : Bool := match x with | .next t => p t | _ => false

/-! ### Well-formedness (each check refuses a term) -/

theorem test_wf_site : Instr.wf (.mul 3072) = false ∧ Instr.wf (.mul 3071) = true := by decide
theorem test_wf_domain : Instr.wf (.thermalTrip 36) = false ∧ Instr.wf (.thermalTrip 35) = true := by decide
theorem test_wf_bank : Instr.wf (.bankRetire 6) = false ∧ Instr.wf (.bankRetire 5) = true := by decide
theorem test_wf_row : Instr.wf (.spareRowReplace 0 ⟨8192, []⟩) = false ∧ Instr.wf (.spareRowReplace 5 ⟨8191, []⟩) = true := by decide
theorem test_wf_gauge : Instr.wf (.gaugeWindow 96 ⟨0, 0⟩) = false ∧ Instr.wf (.gaugeWindow 95 ⟨0, 0⟩) = true := by decide
theorem test_wf_engine : Instr.wf (.hangDetect 3 0) = false ∧ Instr.wf (.hangDetect 3 6) = false ∧ Instr.wf (.hangDetect 3 5) = true := by
  decide
theorem test_wf_fault : exec (.bankRetire 6) tRun = .fault .noSuchUnit := rfl

/-- The table gives no row any bits, so no word spells a command. -/
theorem test_decode : decodeTableWord 8 0 = none ∧ decodeTableWord 64 1 = none := by decide

/-! ### Containers signed under the test key -/

/-- SHA-256 of the public key under which the test containers are signed. -/
def tKeyHash : Bytes := toLe 32 0xA3EC28A3F35A36C292DD064CF62BFD50ABB4B01E07130DDAF9E385306C779975

/-- The public key, as it stands in a container. -/
def tKey : Nat := 0xF15B5080CDFCFBE4F2A63C6E16972AEFF4EF8F59C5F43AD18FB7B029DD1C7A6E

/-- A container of a kind for context `ctx` with IMAGE ID 7, its signature and its body. -/
def tBox (kind ctx sig : Nat) (body : Bytes) : Bytes :=
  toLe 4 0x43534C55 ++ [1, BitVec.ofNat 8 kind, BitVec.ofNat 8 ctx, 0] ++ toLe 4 body.length ++ toLe 4 7 ++ toLe 32 tKey ++ toLe 16 0 ++
    toLe 64 sig ++ body

/-- A state that knows the key. -/
def tKeyed (s : State) : State := { s with sys := { s.sys with keyHash := tKeyHash } }

/-- The context image of context 3 without parts. -/
def tBoxEmpty : Bytes := tBox 1 3 0xDC256A007023391DAF7A03E87764BBB57D838C801854EBA80B66038C6F98E8F96231023FD102421DF247B679B12827AD998B7D7A5AFA273F3A2BD1F5486FEDD []

/-- The Opal part of a model without layers or width, with one scratch slot, in group 0. -/
def tOpalBody : Bytes := [1, 1, 0, 0, 0, 0, 0, 0, 0, 0, 0x22, 0, 1, 1, 0, 0] ++ toLe 4 0x3F800000 ++ List.replicate 108 0

/-- The weight fragment of that model for context 3. -/
def tBoxOpal : Bytes := tBox 3 3 0x5E033FEE5E8A4370D3DA2855CB3BD42EFE30C3F30E2D056019D113E5C474354689E871C7D811EE980D4C573189AA70BE5CF6E18020063779FD7F4636AFC873C tOpalBody

/-- An ensemble of one tree of depth 1 whose first rule always decides for no reply. -/
def tEnsBody : Bytes :=
  [1, 1, 0, 0, 1, 0, 1, 0] ++ List.replicate 24 0 ++ [2] ++ List.replicate 11 0 ++ [0xFF, 0xFF] ++ List.replicate 246 0 ++ [0, 0x3C, 0, 0x40]

/-- The ensemble fragment of it for context 3. -/
def tBoxEns : Bytes := tBox 2 3 0x7806EDBF42D4703F7602A7E68FC08543C1DB438A1B3F1DDC57A2055598F46AB8B0F4EA6470749D696D1FDDBD0BA3A6E96BB8B6342DF820797DD2938D204E837 tEnsBody

/-- A configuration without units. -/
def tConfigBody : Bytes := [1, 1] ++ List.replicate 190 0

/-- The configuration fragment of it for context 3. -/
def tBoxConfig : Bytes := tBox 4 3 0xEC11995ABA02379402062F3C403E4CE7C0BB38AD8942538D7C202D121953471AA7F7D96BFF29782A54FFF5864F04DB3F6B4A6686D59A6AA782E759B12C05D tConfigBody

/-- A firmware container without a body. -/
def tBoxFw : Bytes := tBox 5 255 0x1D304C5A0AA226040E7941D47BE82E538ECC7B992A9DFD2BCD8A0A5904493489800288BCAFF3E0FD5FB7C716C541D2AD570CD2B2423942603FE5F87D8542C4F []

/-! ### Witnesses: the step, the dictionary and contexts -/

theorem witness_KeyHashStaysLocked : tNext (exec .oldSweep tRun) (fun _ => true) = true := by decide +kernel

theorem witness_EveryStepKeepsTheSramForm :
    Memory.wf { tRun with net := { tRun.net with sram := [⟨5, 1⟩] } }.net.sram = true ∧
      tNext (step { tRun with net := { tRun.net with sram := [⟨5, 1⟩] } }) (fun _ => true) = true := by decide +kernel

theorem witness_AlwaysOnStaysOn : domIsOn tRun 35 = true ∧ tNext (step { tRun with pending := [.oldSweep] }) (fun _ => true) = true := by
  decide +kernel

/-- A write that the checks refuse, one that its object's rules refuse, one that is accepted, and a CAN request while Stopped. -/
theorem witness_RefusedWritesChangeNothing :
    (heard { tRun with mgmt := { tRun.mgmt with nmt := .stopped } } (.can 5) = false) ∧
    (heard tRun .tap = true ∧ writeAbort tRun .tap 0x2001 0x77 [1] = some 0x06090011) ∧
    (accepts tRun .tap (cb 0 0) 3 [1] ∧ served tRun = true ∧ accessAbort tRun .tap (cb 0 0) 3 = none ∧
      otherOpen tRun .tap (cb 0 0) 3 = false) ∧
    tNext (exec (.closeContext .tap 0) tRun) (fun t => t.sys.out == [.response .tap (cb 0 0) 3 abState []]) = true := by
  unfold accepts; decide +kernel

/-- An open CAN transfer. -/
def tCanX : Transfer := { index := cb 0 0, sub := 3, who := .can 5, total := 1, data := [], upload := false }

/-- Every clause of the order of checks has an object that reaches it. -/
theorem witness_WriteChecksComeInOrder :
    served tRun = true ∧ indexAssigned 0x1FFF = false ∧
    (indexAssigned 0x2001 = true ∧ (findRow 0x2001 0x77).isNone = true) ∧
    ((findRow 0x1000 0).any fun r => r.acc = .ro) = true ∧
    ((findRow 0x2800 2).any fun r => (r.acc = .rwi || r.acc = .wo) && !inScope tRun (.can 5) 0x2800) = true ∧
    ((findRow (cb 0 0) 3).any fun r => r.acc ≠ .ro && tyBytes r.ty = some 1 && inScope tRun .tap (cb 0 0)
        && !inRange r [0] && inRange r [1]) = true ∧
    (otherOpen tRun .tap (cb 0 0) 3 = false ∧
      otherOpen { tRun with mgmt := { tRun.mgmt with canX := some tCanX } } .tap (cb 0 0) 3 = true) := by
  decide +kernel

theorem witness_ContextCommandsAndHangs :
    (accepts tRun .tap (cb 3 0) 3 [2] ∧ ctxState tRun 3 ≠ .closed ∧ ctxState (tCtx .closed Ctx.reset) 3 = .closed) ∧
    (accepts (tCtx .closed Ctx.reset) .tap (cb 3 0) 3 [2] ∧ accepts (tCtx .opened Ctx.reset) .tap (cb 3 0) 3 [3] ∧
      ctxState (tCtx .opened Ctx.reset) 3 = .opened ∧ accepts (tCtx .opened Ctx.reset) .tap (cb 3 0) 3 [4]) ∧
    heldItems tRun 3 1 = 0 ∧ heldItems { tRun with chim := { tRun.chim with intake := tabSet [] [] 3 [0] } } 3 5 = 1 := by
  unfold accepts; decide +kernel

/-- Opening a Closed context leaves it Open (R18). -/
theorem test_open : tNext (exec (.openContext .tap 3) (tCtx .closed Ctx.reset)) (fun t => ctxState t 3 == .opened) = true := by
  decide +kernel

/-- A cause takes an Open context into Recovering and counts (R484). -/
theorem test_recover : tNext (exec (.recover .tap 3) (tCtx .opened Ctx.reset)) (fun t =>
    ctxState t 3 == .recovering && reg t (cb 3 0) 9 0 == 1 && val t (cb 3 0) 0x0A == 0x0201) = true := by decide +kernel

theorem witness_CausesTakeContextsIntoRecovering :
    ctxState (tCtx .opened Ctx.reset) 3 = .opened ∧ ctxState (tCtx .recovering Ctx.reset) 3 = .recovering ∧
    ctxState (tCtx .loading Ctx.reset) 3 = .loading ∧ ctxState (tCtx .unloading Ctx.reset) 3 = .unloading ∧ ctxState tRun 3 = .free := by
  decide +kernel

theorem witness_LoadAndUnloadCommands :
    (accepts tRun .tap (cb 3 0) 3 [1] ∧ tRun.sys.boot = .running ∧ ctxState tRun 3 = .free ∧ stagingFree tRun = true) ∧
    (accepts (tCtx .closed Ctx.reset) .tap (cb 3 0) 3 [5] ∧ ctxState (tCtx .closed Ctx.reset) 3 = .closed) ∧
    (accepts (tCtx .recovering { Ctx.reset with td := some (tTd .rewriting) }) .tap (cb 3 0) 3 [5] ∧
      phaseOf (tCtx .recovering { Ctx.reset with td := some (tTd .rewriting) }) 3 = some .rewriting) ∧
    (accepts (tCtx .recovering { Ctx.reset with td := some (tTd .purging) }) .tap (cb 3 0) 3 [5] ∧
      phaseOf (tCtx .recovering { Ctx.reset with td := some (tTd .purging) }) 3 ≠ some .rewriting) ∧
    (accepts (tCtx .loading Ctx.reset) .tap (cb 3 0) 3 [1] ∧ ctxState (tCtx .loading Ctx.reset) 3 ≠ .free) := by
  unfold accepts; decide +kernel

/-- Context 3 loading an image of 128 bytes. -/
def tLoading : State := tKeyed (setReg (tCtx .loading { Ctx.reset with td := some (tTd .reading) }) 0x2020 3 0 128)

/-- An image that cannot be loaded, one whose domains are On, and one that awaits domains (R536). -/
theorem witness_LoadingEndsClosedOrFree :
    (ctxState tLoading 3 = .loading ∧ phaseOf tLoading 3 = some .reading) ∧
    (match loadImage tLoading 3 [] [] with | .error c => c = 0x0102 | .ok _ => False) ∧
    tOk (loadImage tLoading 3 tBoxEmpty []) (fun l => domainsAwaited tLoading l.state 3 == []) = true ∧
    tOk (loadImage { tLoading with power := State.reset.power } 3 tBoxEmpty [])
      (fun l => domainsAwaited { tLoading with power := State.reset.power } l.state 3 == [8, 9, 32]) = true ∧
    (ctxState (tCtx .unloading { Ctx.reset with td := some (tTd .rewriting) }) 3 = .unloading ∧
      phaseOf (tCtx .unloading { Ctx.reset with td := some (tTd .rewriting) }) 3 = some .rewriting) := by
  refine ⟨by decide +kernel, ?_, by decide +kernel, by decide +kernel, by decide +kernel⟩
  have h : (match loadImage tLoading 3 [] [] with | .error c => decide (c = 0x0102) | .ok _ => false) = true := by decide +kernel
  revert h
  cases loadImage tLoading 3 [] [] <;> simp

/-- A container signed under another key fails with its cause (R483, R534). -/
theorem test_load_key : tNext (exec (.loadComplete 3 (some (tBox 1 3 0 [])) []) tLoading) (fun t =>
    ctxState t 3 == .free && val t (cb 3 0) 0x0A == 0x0101) = true := by decide +kernel

/-- The image without parts leaves its context Closed (R18). -/
theorem test_load_closed : tNext (exec (.loadComplete 3 (some tBoxEmpty) []) tLoading) (fun t => ctxState t 3 == .closed) = true := by
  decide +kernel

theorem witness_GenerationsAdvanceAndPurgesEnd :
    (phaseOf (tCtx .recovering { Ctx.reset with td := some (tTd .awaitGen) }) 3 = some .awaitGen ∧
      flueLists (tCtx .recovering { Ctx.reset with td := some (tTd .awaitGen) }) (BitVec.ofNat 14 (64 * 1 + 3)) = false) ∧
    flueLists { tRun with flue := { tRun.flue with chans := tabSet Chan.reset [] 0 { Chan.reset with
      outstanding := tabSet none [] 4 (some { type := 0x01, tag := some 67, arg := 0, purpose := .staging, dx := 0, dy := 0, len := 0, sentAt := 0 }) } } }
        (BitVec.ofNat 14 67) = true ∧
    ((ctxAt (tCtx .recovering { Ctx.reset with td := some (tTd .purging) }) 3).td = some (tTd .purging) ∧
      (∀ e, e ∈ (tTd .purging).escalations → e.busy = false) ∧
      ctxState (tCtx .recovering { Ctx.reset with td := some (tTd .purging) }) 3 = .recovering ∧
      ctxState (tCtx .unloading { Ctx.reset with td := some (tTd .purging) }) 3 = .unloading) := by
  refine ⟨by decide +kernel, by decide +kernel, by decide +kernel, by simp [tTd], by decide +kernel, by decide +kernel⟩

/-- The generation advances modulo 256 (R15). -/
theorem test_generation_wraps :
    tNext (exec (.generationAdvance 3) (setReg (tCtx .recovering { Ctx.reset with td := some (tTd .awaitGen) }) (cb 3 0) 2 0 255))
      (fun t => ctxGen t 3 == 0 && phaseOf t 3 == some .purging) = true := by decide +kernel

theorem witness_RecoveriesEndClosedOrOpen :
    (ctxAt (tCtx .recovering { Ctx.reset with td := some (tTd .rewriting) }) 3).td = some (tTd .rewriting) ∧
    ctxState (tCtx .recovering { Ctx.reset with td := some (tTd .rewriting) }) 3 = .recovering ∧
    inStorm (tCtx .recovering { Ctx.reset with td := some (tTd .rewriting) }) 3 = false ∧
    inStorm (tCtx .recovering { Ctx.reset with td := some (tTd .rewriting), storms := [0, 0, 0, 0] }) 3 = true := by
  decide +kernel

/-! ### Witnesses: Quartz (04) -/

/-- A state whose base 1 is `b`. -/
def tBase (b : Base) : State := setBase tRun 1 b

theorem witness_TimeBasesAdvanceAndStep :
    tRun.pending = [] ∧
    (baseAt (tBase { Base.reset with step := some (.by (-1)), session := .armed }) 1).step = some (.by (-1)) ∧
    (baseAt (tBase { Base.reset with step := some (.dest 0xFFFFFFFFFFFFFFFF) }) 1).step = some (.dest (2 ^ 64 - 1)) ∧
    (baseAt (tBase { Base.reset with step := some (.dest 5), pendingWrap := true }) 1).pendingWrap = true := by decide +kernel

/-- Step back by 2^-16 ns from E:F = 0 leads to the top of the 80 bits (R140). -/
theorem test_step_back : tNext (exec (.stepApply 1) (tBase { Base.reset with step := some (.by (-1)), session := .armed }))
    (fun t => (baseAt t 1).n == 0xFFFFFFFF && (baseAt t 1).u == 0xFFFFFFFF && (baseAt t 1).f == 0xFFFF
      && (baseAt t 1).session == .running) = true := by decide +kernel

/-- Five cycles of the time-base clock at rate word 0 are 8 ns (R132). -/
theorem test_cycle : tNext (step tRun) (fun a => tNext (step a) (fun b => tNext (step b) (fun c => tNext (step c) (fun d =>
    tNext (step d) (fun e => (baseAt e 2).n == 8 && (baseAt e 2).f == 0 && (baseAt e 2).g == 0 && (baseAt e 2).residue == 0))))) = true := by
  decide +kernel

theorem witness_WrapsEpochsAndReferences :
    (baseAt tRun 1).pendingWrap = false ∧
    ((baseAt (tBase { Base.reset with pendingWrap := true, wrapRaised := true, u := 0xFFFFFFFE }) 1).pendingWrap = true ∧
      (baseAt (tBase { Base.reset with pendingWrap := true, wrapRaised := true, u := 0xFFFFFFFE }) 1).wrapRaised = true ∧
      (baseAt (tBase { Base.reset with pendingWrap := true, wrapRaised := true, u := 0xFFFFFFFE }) 1).u ≠ 0xFFFFFFFF) ∧
    readable tRun .tap 0x2201 9 ∧ (baseAt tRun 1).refStatus ≠ 2 ∧ (baseAt (tBase { Base.reset with refStatus := 2 }) 1).refStatus = 2 := by
  unfold readable; decide +kernel

theorem witness_DisciplineSessionTransitions :
    (ptpDisciplined tRun 1 = false ∧ accepts tRun .tap 0x2201 5 [1] ∧ (baseAt tRun 1).session ≠ .armed ∧
      (baseAt tRun 1).session = .idle) ∧
    (accepts (tBase { Base.reset with session := .armed }) .tap 0x2201 5 [1] ∧
      accepts (tBase { Base.reset with session := .armed }) .tap 0x2201 5 [2] ∧
      ptpDisciplined (tBase { Base.reset with session := .armed }) 1 = false ∧
      (baseAt (tBase { Base.reset with session := .armed }) 1).session = .armed ∧
      (baseAt (tBase { Base.reset with session := .armed }) 1).step = none) ∧
    accepts tRun .tap 0x2201 5 [2] ∧
    (heard tRun .tap = true ∧ served tRun = true ∧ accessAbort tRun .tap 0x2201 8 = none ∧ otherOpen tRun .tap 0x2201 8 = false ∧
      (0x20000000 : BitVec 64).toInt ≤ 0x20000000 ∧ ¬ (0x20000001 : BitVec 64).toInt ≤ 0x20000000) ∧
    accepts (tBase { Base.reset with session := .armed }) .tap 0x2201 6 (toLe 8 0xFFFFFFFFFFFFFFFF) ∧
    accepts (tBase { Base.reset with session := .armed }) .tap 0x2201 7 (toLe 8 5) ∧
    accepts tRun .tap 0x2201 6 (toLe 8 1) ∧ accepts tRun .tap 0x2201 7 (toLe 8 5) ∧
    ptpDisciplined (put tRun 0x2201 3 1) 1 = true ∧ accepts (put tRun 0x2201 3 1) .tap 0x2201 6 (toLe 8 1) ∧
    (heard (put tRun 0x2201 3 1) .tap = true ∧ served (put tRun 0x2201 3 1) = true ∧ accessAbort (put tRun 0x2201 3 1) .tap 0x2201 8 = none ∧
      otherOpen (put tRun 0x2201 3 1) .tap 0x2201 8 = false) := by
  unfold accepts; decide +kernel

/-- A step while Idle is refused with the state abort (R138). -/
theorem test_step_idle : tNext (exec (.step .tap 1 1) tRun) (fun t => t.sys.out == [.response .tap 0x2201 6 abState []]) = true := by
  decide +kernel

theorem witness_PulsesAndCaptures :
    (accepts tRun .tap 0x2221 2 [0] ∧ accepts tRun .tap 0x2221 2 [1] ∧ accepts tRun .tap 0x2221 2 [2]) ∧
    baseEF (baseAt tRun (val tRun 0x2221 1 % 4)) ≤ val tRun 0x2221 3 * 2 ^ 16 ∧
    val (setBase tRun 0 { Base.reset with n := 1 }) 0x2221 3 * 2 ^ 16 <
      baseEF (baseAt (setBase tRun 0 { Base.reset with n := 1 }) (val tRun 0x2221 1 % 4)) ∧
    val (put (put tRun 0x2221 5 1) 0x2221 4 2) 0x2221 5 < val (put (put tRun 0x2221 5 1) 0x2221 4 2) 0x2221 4 ∧
    val (put (put tRun 0x2221 4 3) 0x2221 5 3) 0x2221 4 ≤ val (put (put tRun 0x2221 4 3) 0x2221 5 3) 0x2221 5 ∧
    ((pulseAt (setPulse tRun 1 { next := some 5, high := true }) 1).next = some 5 ∧ baseEF (baseAt tRun (val tRun 0x2221 1 % 4)) < 5 * 2 ^ 16 ∧
      (pulseAt (setPulse tRun 1 { next := some 0, high := false }) 1).next = some 0 ∧ 0 * 2 ^ 16 ≤ baseEF (baseAt tRun (val tRun 0x2221 1 % 4)) ∧
      (pulseAt tRun 1).next = none ∧ (pulseAt tRun 1).high = false ∧ val tRun 0x2221 2 ≠ 2 ∧
      val (put tRun 0x2221 2 2) 0x2221 2 = 2 ∧ (pulseAt (setPulse tRun 1 { next := some 5, high := true }) 1).high = true) ∧
    (bit (val (put tRun 0x2231 2 1) 0x2231 2) 0 = true ∧ bit (val (put tRun 0x2231 2 1) 0x2231 2) 1 = false ∧
      (captureAt tRun 1).last = none ∧ (captureAt tRun 1).fifo.length < 16 ∧
      elapsed tRun - 0 ≤ ns 20) ∧
    readable tRun .tap 0x2231 3 ∧ (captureAt tRun 1).fifo = [] := by
  unfold accepts readable; decide +kernel

/-- The seventeenth edge is lost and counted (R155). -/
theorem test_capture_full :
    tNext (exec (.captureEdge 1 true) (put (setCapture tRun 1 { fifo := List.replicate 16 { e := 0, f := 0, step := 0, rising := true }, last := none }) 0x2231 2 1))
      (fun t => (captureAt t 1).fifo.length == 16 && val t 0x2231 5 == 1) = true := by decide +kernel

/-- A master of identity 77. -/
def tData : PtpData :=
  { priority1 := 1, clockClass := 6, accuracy := 0x20, variance := 0, priority2 := 1, grandmaster := 7, steps := 0, sender := 77 }

/-- Base 1 disciplined by its PTP instance, a slave-only clock on port 2, which is up, with that master heard once and a port
state. -/
def tPtp (st : Nat) : State :=
  let s := setPort tRun 2 { Port.reset with link := .up25 }
  let s := setPtpState (put (put (put s 0x2211 2 4) 0x2211 1 2) 0x2201 3 1) 1 2 st
  let y : Foreign := { port := 2, data := tData, peer := none, last := 0, qualified := false }
  setPtp s 1 { ptpAt s 1 with foreign := [y], parent := some { y with qualified := true } }

theorem witness_PtpInstanceCommands :
    (accepts (put tRun 0x2211 2 4) .tap 0x2211 1 [1] ∧ val (put tRun 0x2211 2 4) 0x2211 1 = 0 ∧ val (put tRun 0x2211 2 4) 0x2211 2 = 2 ^ 2) ∧
    (accepts (put tRun 0x2211 1 1) .tap 0x2211 1 [2] ∧ val (put tRun 0x2211 1 1) 0x2211 1 ≠ 0 ∧ accepts (put tRun 0x2211 1 1) .tap 0x2211 1 [0]) ∧
    (accepts tRun .tap 0x2211 1 [2] ∧ (allPorts.filter fun a => bit (val tRun 0x2211 2) a).length ≠ 1 ∧ accepts tRun .tap 0x2211 1 [3]) ∧
    (ptpOn tRun 1 2 = false ∧ ptpOn (tPtp 6) 1 2 = true ∧ ptpState (tPtp 6) 1 2 = 6 ∧ ptpState (tPtp 9) 1 2 = 9) ∧
    (ptpBest (stillHeard (tPtp 9) 1 2) = none ∧ ptpBest ((stillHeard (tPtp 9) 1 2).filter fun y => y.port = 2) = none ∧
      (ptpAt (ptpDecide (noteAnnounce (tPtp 9) 1 2 tData none) 1) 1).parent ≠ none) ∧
    (fromParent (tPtp 9) 1 2 77 = true ∧ fromParent (tPtp 9) 1 2 78 = false ∧ (0 : BitVec 8).toNat = val (tPtp 9) 0x2201 0x0B ∧
      (1 : BitVec 8).toNat ≠ val (tPtp 9) 0x2201 0x0B ∧ ptpDisciplined (tPtp 9) 1 = true ∧ ptpDisciplined (put (tPtp 9) 0x2201 3 0) 1 = false ∧
      (baseAt (tPtp 9) 1).session = .idle ∧ (baseAt (setBase (tPtp 9) 1 { Base.reset with session := .armed }) 1).step = none ∧
      (baseAt (setBase (tPtp 9) 1 { Base.reset with session := .running }) 1).session = .running) ∧
    ((ptpAt (setPtp (tPtp 9) 1 { ptpAt (tPtp 9) 1 with lastSync := some (0, 0), delayReq := some 5 }) 1).lastSync ≠ none ∧
      (ptpAt (tPtp 9) 1).lastSync = none ∧ (ptpAt (tPtp 9) 1).delayReq ≠ some 5) := by
  unfold accepts; decide +kernel

/-- A Sync of the master 100 ns late makes the offset 100 ns, and an idle disciplined base steps back by it (R142, R144, R145). -/
theorem test_sync : tNext (exec (.ptpMessageRx 1 (.sync 2 77 0 0 6553600 0)) (tPtp 9)) (fun t =>
    val t 0x2211 0x11 == 6553600 && (baseAt t 1).step == some (.by (-6553600))) = true := by decide +kernel

/-- A Delay_Req is answered by a master alone (R158). -/
theorem test_delay_req : tNext (exec (.ptpMessageRx 1 (.delayReq 2 0 0 5 1 none)) (tPtp 6)) (fun t => (portAt t 2).fwQueue.length == 1) = true ∧
    tNext (exec (.ptpMessageRx 1 (.delayReq 2 0 0 5 1 none)) (tPtp 9)) (fun t => (portAt t 2).fwQueue.length == 0) = true := by
  decide +kernel

/-- The greatest rate word is taken, the next one is out of range (R133). -/
theorem test_rate_range : tNext (exec (.rateWrite .tap 1 0x20000000) tRun) (fun t => (baseAt t 1).rho == 0x20000000) = true ∧
    tNext (exec (.rateWrite .tap 1 0x20000001) tRun) (fun t => t.sys.out == [.response .tap 0x2201 8 abRange []]) = true := by
  decide +kernel

/-! ### Witnesses: ports, the transmit side (03) -/

/-- A state whose port 2 is `x`. -/
def tPort (x : Port) : State := setPort tRun 2 x

/-- Port 2 with its link up at 25G. -/
def tUp : Port := { Port.reset with link := .up25 }

/-- A frame of 60 bytes of the firmware queue of port 2, in a traffic class. -/
def tTx (tc : BitVec 3) : TxFrame :=
  { src := 0x42, tc := tc, tsReq := false, oneStep := false, refN := 0, data := List.replicate 60 0, descs := [] }

theorem witness_LinksComeUpAndGoDown :
    accepts (tPort Port.reset) .tap 0x2102 1 [2] ∧ accepts (tPort Port.reset) .tap 0x2102 1 [4] ∧
    accepts (tPort tUp) .tap 0x2102 0x0C [1] ∧
    (linkUp (portAt (put (tPort Port.reset) 0x2102 1 2) 2) = false ∧ linkAllowed (put (tPort Port.reset) 0x2102 1 2) 2 .g25 false = true) ∧
    linkAllowed (put (tPort Port.reset) 0x2102 1 1) 2 .g10 false = true ∧
    linkAllowed (put (put (tPort Port.reset) 0x2102 1 4) 0x2102 2 1) 2 .g25 true = true ∧
    (linkUp (portAt (tPort tUp) 2) = true ∧
      (strike (linkStart (dropLink (tPort tUp) 2) 2) 6 2).1 = false ∧
      (strike (linkStart (dropLink (put (tPort tUp) 0x2C20 6 0x10001) 2) 2) 6 2).1 = true) ∧
    (portAt (tPort { Port.reset with link := .negotiating }) 2).link = .negotiating := by
  unfold accepts; decide +kernel

/-- A link that is lost counts once (R126). -/
theorem test_link_down : tNext (exec (.linkDown 2) (tPort tUp)) (fun t =>
    reg t 0x2112 0x14 0 == 1 && !linkUp (portAt t 2)) = true := by decide +kernel

/-- That frame in transmission on port 2 since time 0. -/
def tNow : TxNow :=
  { frame := tTx 6, wire := padded (tTx 6).data ++ fcsBytes (padded (tTx 6).data), sent := 0, fragments := 0, start := 0, stamp := [],
    preempted := false, lost := false }

theorem witness_FramesAreSentAndHandedBack :
    (scheduled (tPort { tUp with fwQueue := [tTx 7] }) 2 [tTx 7] = some (tTx 7) ∧
      txError (tPort { tUp with fwQueue := [tTx 7] }) 2 (tTx 7) = 2 ^ 20 ∧ expressWaits (tPort { tUp with fwQueue := [tTx 7] }) 2 = false) ∧
    (scheduled (tPort { tUp with fwQueue := [tTx 6] }) 2 [tTx 6] = some (tTx 6) ∧
      txError (tPort { tUp with fwQueue := [tTx 6] }) 2 (tTx 6) = 0) ∧
    (txError (tPort Port.reset) 2 (tTx 6) = 2 ^ 21 ∧ txError (tPort Port.reset) 2 (tTx 7) = 2 ^ 21 + 2 ^ 20) ∧
    (scheduled (tPort tUp) 2 [] = none ∧ (portAt (tPort { tUp with sending := [1] }) 2).sending ≠ []) ∧
    ((portAt (tPort { Port.reset with tx := some { tNow with lost := true } }) 2).tx = some { tNow with lost := true } ∧
      (portAt (tPort { tUp with tx := some { tNow with preempted := true } }) 2).tx = some { tNow with preempted := true } ∧
      (portAt (tPort { tUp with tx := some tNow }) 2).tx = some tNow) ∧ 0x40 ≤ (tTx 6).src ∧
    (linkUp (portAt (tPort tUp) 2) = true ∧ linkUp (portAt (tPort Port.reset) 2) = false ∧ val (tPort tUp) 0x2112 3 ≠ 1) ∧
    val (put (tPort { tUp with verifyTries := 2 }) 0x2112 3 1) 0x2112 3 = 1 ∧
    val (put (tPort { tUp with verifyTries := 3 }) 0x2112 3 1) 0x2112 3 = 1 := by
  decide +kernel

/-- A frame of 60 bytes is 64 on the wire with its FCS (R111, R126). -/
theorem test_tx_done : tNext (exec (.txFrameDone 2) (tPort { tUp with tx := some tNow })) (fun t => reg t 0x2112 0x0D 0 == 1 && reg t 0x2112 0x0E 0 == 64) = true := by decide +kernel

/-- Of two classes the higher is sent first (R112). -/
theorem test_tx_class : scheduled (tPort tUp) 2 [tTx 1, tTx 6] = some (tTx 6) := by decide +kernel

/-- Port 2 with an administrative list of one entry of 1,000 ns. -/
def tGates : State :=
  put (put (tPort { tUp with adminList := [{ op := 0, gates := 0xFF, interval := 1000 }] }) 0x2132 2 1) 0x2132 5 1000

/-- A change to that list that starts at 5. -/
def tChange : GateChange := { list := [], base := 0, cycle := 1000, start := 5 }

/-- A preemptable frame of 300 bytes in transmission since time 0. -/
def tLong : TxNow := { tNow with wire := List.replicate 300 0 }

/-- Port 2 with it, preemption active and express class 7, `k` cycles of the time-base clock later. -/
def tPre (k : Nat) : State :=
  let s := put (tPort { tUp with tx := some tLong }) 0x2112 3 2
  { s with sys := { s.sys with cycles := k } }

/-- Port 2 with that frame and a list that closes every gate. -/
def tShut : State :=
  put (tPort { tUp with tx := some tLong, oper := { Port.reset.oper with list := [{ op := 0, gates := 0, interval := 1000 }], gates := 0 } }) 0x2132 1 1

theorem witness_GateListsRunAndChange :
    val (put (tPort tUp) 0x2132 1 1) 0x2132 1 ≠ 0 ∧
    (accepts tGates .tap 0x2132 7 [1] ∧ val tGates 0x2132 2 ≠ 0 ∧ val tGates 0x2132 5 ≠ 0) ∧
    (accepts (put tGates 0x2132 5 0) .tap 0x2132 7 [1] ∧ val (put tGates 0x2132 5 0) 0x2132 2 ≠ 0 ∧ val (put tGates 0x2132 5 0) 0x2132 5 = 0) ∧
    ((portAt (tPort { tUp with change := some tChange }) 2).change = some tChange ∧
      baseE (baseAt tRun (gateBase tRun 2)) < tChange.start ∧ ({ tChange with start := 0 } : GateChange).start ≤ baseE (baseAt tRun (gateBase tRun 2))) ∧
    (gateOpen (tPre 0) 2 6 = true ∧ macHeld (tPre 0) 2 = false ∧ gateOpen tShut 2 6 = false ∧
      macHeld (put (setPort tShut 2 { portAt tShut 2 with oper := { (portAt tShut 2).oper with held := true } }) 0x2112 3 2) 2 = true) ∧
    (preemptActive (tPre 20) 2 = true ∧ (portAt (tPre 20) 2).tx = some tLong ∧ (preemptPoint (tPre 20) 2 tLong).isSome = true ∧
      preemptPoint (tPre 0) 2 tNow = none ∧ preemptActive tRun 2 = false) := by
  unfold accepts; decide +kernel

/-- A frame preempted at 92 bytes leaves them as its first fragment, with an mCRC (R120, R121). -/
theorem test_preempt : ((portAt (preemptTx (tPre 20) 2) 2).tx.map fun x => (x.preempted, x.sent, x.fragments)) = some (true, 92, 1) := by
  decide +kernel

/-- A change whose base time is to come starts at it (R118). -/
theorem test_config_change : tNext (exec (.configChange .tap 2 1) (put tGates 0x2132 4 77)) (fun t =>
    ((portAt t 2).change.map (·.start)) == some 77) = true := by decide +kernel

/-! ### Witnesses: receiving frames and the rings (03, 05) -/

/-- A frame as it starts on port 2, with the bytes that have arrived. -/
def tFrame (bytes : Bytes) : Frame :=
  { port := 2, express := true, bytes := bytes, stamps := [(0, 0), (0, 0), (0, 0), (0, 0)], table := [], addressed := true, lmax := 1522, dflt := 0, steer := none,
    lane := none, headerError := false, ended := none, cut := none, codeError := false, mac := none, eff := none, messages := [],
    updates := 0, logged := false, whole := false, mismatch := false, malformed := false, lost := false, due := [] }

/-- Port 2 up and receiving frame 5. -/
def tRx (x : Frame) : State := setFrame (tPort { tUp with rx := some 5 }) 5 x

/-- The first 14 bytes of a frame with an EtherType. -/
def tEther (ety : Nat) : Bytes := List.replicate 12 0 ++ toBe 2 ety

/-- A valid entry of the integrator without conditions that drops. -/
def tDropEntry : BitVec 256 := 0xD0000000

theorem witness_FramesArriveAndAreSteered :
    (linkUp tUp = true ∧ addressPasses (tPort tUp) 2 0xFFFFFFFFFFFF = true ∧ addressPasses (tPort tUp) 2 5 = false) ∧
    (val (put (tPort { tUp with rx := some 5 }) 0x2112 3 2) 0x2112 3 = 2) ∧
    beArrived (tEther 0x8808) 12 2 = some 0x8808 ∧
    (beArrived (tEther 0x0800) 12 2 ≠ some 0x8808 ∧ decidingEntry [] (tEther 0x0800) false = some none) ∧
    decidingEntry [(9, tDropEntry)] (tEther 0x0800) false = some (some (9, tDropEntry)) ∧ entrySteer tDropEntry = .drop ∧
    decidingEntry [(9, 0xA000000080000000)] (tEther 0x8100) false = none ∧
    (arrive (tRx (tFrame [])) 2 (tEther 0x0800)).isSome = true := by
  decide +kernel

/-- A MAC control frame is discarded and counted (R81). -/
theorem test_mac_control : (reg (steerFrame (tRx (tFrame (tEther 0x8808))) 5) 0x2112 0x0C 0) = 1 := by decide +kernel

/-- A frame that no entry matches follows the default action, which is drop at reset (R95). -/
theorem test_default : reg (steerFrame (tRx (tFrame (tEther 0x0800))) 5) 0x2112 0x0B 0 = 1 := by decide +kernel

theorem witness_FramesEndAreCutOrAborted :
    (frameAt (tRx (tFrame [])) 5 = some (tFrame []) ∧ (arrive (tRx (tFrame [])) 2 (tEther 0x0800)).isSome = true) ∧
    (frameAt (tRx { tFrame [] with cut := some .oversize }) 5 = some { tFrame [] with cut := some .oversize } ∧
      ({ tFrame [] with cut := some .oversize } : Frame).cut ≠ none) ∧
    ((portAt tRun 2).rx = none ∧ arrive (tRx (tFrame [1])) 2 (tEther 0x0800) = none ∧ (tFrame [1]).cut = none) ∧
    (let x := { tFrame [] with lmax := 64 };
      (arrive (tRx x) 2 ((List.replicate 65 0).take x.lmax)).isSome = true ∧ (List.replicate 65 (0 : Byte)).length = x.lmax + 1 ∧
      (List.replicate 64 (0 : Byte)).length ≠ x.lmax + 1) ∧
    ((portAt (tPort { tUp with fec := true }) 2).fec = true ∧ (portAt (tPort tUp) 2).fec = false) ∧
    (fragmentError tRun 2 (tFrame []) [64] = true ∧ fragmentError (put tRun 0x2112 3 2) 2 { tFrame [] with express := false } [63] = true ∧
      fragmentError (put tRun 0x2112 3 2) 2 { tFrame [] with express := false } [64] = false) := by
  decide +kernel

/-- A write of L_max meets the next frame, not the one in reception (R125), and RS-FEC codewords are counted (R126). -/
theorem test_lmax : tNext (exec (.rxOversize 2 (List.replicate 65 0)) (put (tRx (tFrame [])) 0x2102 5 64))
      (fun t => (frameAt t 5).bind (·.cut) == none) = true ∧
    tNext (exec (.rxFrameEnd 2 [] { codeError := false, fragments := [], corrected := 3, uncorrected := 1 }) (tPort { tUp with fec := true }))
      (fun t => reg t 0x2112 0x15 0 == 3 && reg t 0x2112 0x16 0 == 1) = true := by decide +kernel

/-- A frame of 60 zero bytes with its FCS. -/
def tWhole : Bytes := List.replicate 60 0 ++ toLe 4 (fcs32 (List.replicate 60 0))

/-- Byte L_max + 1 gives the cause OVERSIZE, whatever follows (R85). -/
theorem test_causes : badCause (tFrame tWhole) = none ∧ badCause (tFrame (List.replicate 64 0)) = some .fcs ∧
    badCause (tFrame (List.replicate 63 0)) = some .runt ∧ badCause { tFrame tWhole with codeError := true } = some .code ∧
    badCause { tFrame tWhole with cut := some .abort } = some .abort ∧
    badCause { tFrame tWhole with cut := some .oversize } = some .oversize := by decide +kernel

theorem witness_VerdictsOfReceivedFrames :
    (frameFinal { tFrame tWhole with ended := some 64 } = true ∧ badCause { tFrame tWhole with ended := some 64 } = none) ∧
    badCause { tFrame [] with ended := some 0 } = some .runt ∧
    (frameAt (tRx { tFrame tWhole with mac := some (.bad .fcs) }) 5).bind (·.eff) = none ∧
    (frameAt (tRx { tFrame tWhole with mac := some .good }) 5).map (·.mac) = some (some .good) ∧
    frameFinal (tFrame tWhole) = false ∧ ({ tFrame tWhole with mismatch := true } : Frame).mismatch = true ∧
    ({ tFrame tWhole with eff := some true } : Frame).eff ≠ none := by
  decide +kernel

/-- A layout of one USED quantity field and a symbol field, messages of a 2-byte prefix that includes itself (R173, R176). -/
def tLayout : Layout :=
  { valid := true, verified := false, lsrc := 0, filter := 12, typeOff := 2, type := 0x54, pkind := 1, pindex := 0, symf := 0, pskip := 0,
    lpsize := 2, lpbe := false, lpinc := true, flen := 0,
    fields := [{ off := 4, kind := 5, width := 8, be := false, used := true, uns := false, shift := 0, count := 0 }], raw := [] }

/-- Context 3 Open with that layout, and its cut-through entry at index 12 of port 2. -/
def tOpen : State :=
  setCtxState (setCtx tRun 3 { Ctx.reset with image := some { tImage with layouts := [(0, tLayout)], ranges := [(0, 16)] } }) 3 .opened

/-- A UDP frame of `n` payload bytes up to the end of its symbol: 42 bytes of headers, then the message. -/
def tMessage (tail : Bytes) : Bytes :=
  List.replicate 12 0 ++ toBe 2 0x0800 ++ toBe 2 0x4500 ++ toBe 2 (28 + 12) ++ toBe 4 0 ++ [64, 17] ++ toBe 2 0x7AC6 ++ toBe 8 0
    ++ toBe 4 0 ++ toBe 2 20 ++ toBe 2 0 ++ toLe 2 12 ++ [0x54, 0] ++ tail

/-- Frame 5 of port 2, steered to context 3. -/
def tLane : State :=
  setFrame (setPort tOpen 2 { tUp with rx := some 5 }) 5 { tFrame [] with steer := some (some 12, .context 3 none) }

/-- The same frame up to the end of the symbol of a message of 13 bytes whose TYPE byte comes last. -/
def tLate : Bytes :=
  List.replicate 12 0 ++ toBe 2 0x0800 ++ toBe 2 0x4500 ++ toBe 2 (28 + 13) ++ toBe 4 0 ++ [64, 17] ++ toBe 2 0x7AC5 ++ toBe 8 0
    ++ toBe 4 0 ++ toBe 2 21 ++ toBe 2 0 ++ toLe 2 13 ++ [0, 0] ++ List.replicate 8 1

def tLateLane : State :=
  let x := { Ctx.reset with image := some { tImage with layouts := [(0, { tLayout with typeOff := 12 })], ranges := [(0, 16)] } }
  setFrame (setPort (setCtxState (setCtx tRun 3 x) 3 .opened) 2 { tUp with rx := some 5 }) 5
    { tFrame [] with steer := some (some 12, .context 3 none) }

/-- A state with the symbol of those messages listed for instrument 2 of context 3. -/
def tListed (s : State) : State := match exec (.symbolInsert .tap 3 2 0x0101010101010101) s with | .next t => t | _ => s

theorem witness_MessagesAreLookedUpAndDecided :
    (match arrive tLane 2 (tMessage (List.replicate 8 1)) with
      | none => false
      | some (f, t) => match laneMessage (laneRun t f) f with
        | none => false
        | some h => lookupNow h && decide (h.frame.bytes.length = h.lane.next + decideAt h)
            && decide (msgAt (openMessage (laneRun t f) f h).2 (openMessage (laneRun t f) f h).1 ≠ none)) = true ∧
    (match arrive (setSymbol tLane 0 (some (3, 0x0101010101010101, 2))) 2 (tMessage (List.replicate 8 1)) with
      | none => none
      | some (f, _) => some f) = some 5 ∧
    arrive tRun 2 [] = none ∧
    (match arrive tLane 2 (tMessage (List.replicate 7 1)) with
      | none => false
      | some (f, t) => (laneMessage (laneRun t f) f).any fun h => !lookupNow h && decide (h.frame.bytes.length ≠ h.lane.next + decideAt h)) = true ∧
    (match arrive tLane 2 (tEther 0x0800) with | none => false | some (f, t) => (laneMessage (laneRun t f) f).isNone) = true ∧
    (match arrive (tListed tLane) 2 (tMessage (List.replicate 8 1)) with
      | none => false
      | some (f, t) => (laneMessage (laneRun t f) f).any fun h =>
          let o := openMessage (laneRun t f) f h;
          (msgAt (lookupMessage o.2 o.1 h) o.1).any fun x => x.instr = some 2 && (msgAt o.2 o.1).any (fun y => !y.looked)
            && (messageSymbol h).isSome && (arrivalAt h (h.lane.next + symbolEnd h.layout)).isNone) = true ∧
    tNext (exec (.symbolLookup 2 tLate) tLateLane) (fun s => match arrive s 2 (tLate ++ [0x54]) with
      | none => false
      | some (f, t) => (laneMessage (laneRun t f) f).any fun h => (arrivalAt h (h.lane.next + symbolEnd h.layout)).isSome) = true := by
  decide +kernel

/-- Of a message whose TYPE byte follows its symbol the lookup is that of the table as the symbol arrived (R184). -/
theorem test_late_type : tNext (exec (.symbolLookup 2 tLate) (tListed tLateLane)) (fun s =>
    tNext (exec (.decisionPoint 2 (tLate ++ [0x54])) { s with work := { s.work with symbols := [] } }) fun t =>
      (msgAt t 0).map (·.instr) == some (some 2)) = true := by decide +kernel

/-- A message whose symbol no context has inserted is a miss, and counts (R184). -/
theorem test_miss : tNext (exec (.symbolLookup 2 (tMessage (List.replicate 8 1))) tLane) (fun t =>
    reg t (cb 3 2) 0x0A 0 == 1 && reg t (cb 3 2) 9 0 == 1) = true := by decide +kernel

theorem witness_SymbolsStayInTheirSlots : tNext (step tOpen) (fun _ => true) = true ∧ tOpen.work.symbols = [] := by decide +kernel

theorem witness_SymbolEditsKeepTheOtherKeys :
    (accepts tOpen .tap (cb 3 2) 0x13 (symbolEdit 1 15 77) ∧ isLoaded tOpen 3 = true ∧ inInstruments tOpen 3 15 = true ∧
      symbolFind tOpen 3 77 = none ∧ hasSymbol tOpen 3 15 = false ∧ (makeRoom tOpen 3 77).isSome = true) ∧
    (accepts (setSymbol tOpen 4 (some (3, 77, 15))) .tap (cb 3 2) 0x13 (symbolEdit 2 0 77)) ∧
    (accepts tOpen .tap (cb 3 2) 0x13 (symbolEdit 2 0 77) ∧ symbolFind tOpen 3 77 = none) ∧
    (accepts tRun .tap (cb 3 2) 0x13 (symbolEdit 2 0 77) ∧ isLoaded tRun 3 = false) := by
  unfold accepts; decide +kernel

/-- A symbol that is inserted is found (R183, R185), and a second instrument index past the set is refused. -/
theorem test_symbol : tNext (exec (.symbolInsert .tap 3 15 77) tOpen) (fun t => symbolLookup t 3 77 == some 15) = true ∧
    tNext (exec (.symbolInsert .tap 3 16 77) tOpen) (fun t => t.sys.out == [.response .tap (cb 3 2) 0x13 abRange []]) = true := by
  decide +kernel

/-- Ring 1 a receive ring of eight descriptors at 0x100 of which six are the block's, and ring 9 one whose memory cannot be
reached; frame 5 is whole, and a chain of it waits. -/
def tRing (r : Nat) (lost : Bool) : State :=
  let s := setFrame tRun 5 { tFrame tWhole with ended := some 64, mac := some .good, steer := some (none, .ring r) }
  let i := 0x2140 + r
  let s := put (put (put (put s i 1 1) i 2 0x100) i 3 8) i 5 6
  setRing s r { Ring.reset with chains := [{ frame := 5, kind := .action, decl := none, miss := false, moff := 0, mlen := 0, tag := none, lost := lost }] }

/-- A descriptor with OWN set, a buffer address and a buffer of 64 bytes. -/
def tDesc (addr : Nat) : Bytes := toLe 8 addr ++ toLe 4 (64 * 65536) ++ toLe 4 0x80000000 ++ List.replicate 16 0

theorem witness_RingChainsAreWritten :
    (chainOf (tRing 1 false) 5 { tFrame tWhole with steer := some (none, .ring 1) } .action).isSome = true ∧
    ((tFrame tWhole).bytes.length = 64 ∧ (tFrame []).bytes.length < 64 ∧ ChainKind.action ∈ ({ tFrame tWhole with due := [.action] } : Frame).due ∧
      ChainKind.action ∉ (tFrame tWhole).due ∧ chainOf tRun 5 (tFrame tWhole) .copy = none) ∧
    ((ringAt tRun 1).chains = [] ∧ ((ringAt (tRing 1 true) 1).chains.head?.map (·.lost)) = some true ∧ (frameAt (tRing 1 true) 5).isSome = true) ∧
    ((ringAt (tRing 1 true) 1).chains ≠ [] ∧ ringDir (tRing 1 false) 1 = 1 ∧ ringSize (tRing 1 false) 1 ≠ 0) ∧
    (ringDir (put (tRing 1 false) 0x2141 1 2) 1 ≠ 1) ∧
    (ringDir (tRing 9 false) 9 = 1 ∧ ringSize (tRing 9 false) 9 ≠ 0 ∧
      ringReachable { tRing 9 false with flue := State.reset.flue } 9 = false) ∧
    (fillChain ([tDesc 0x1000].take (ringAvail (tRing 1 false) 1)) (ringHead (tRing 1 false) 1) (ringSize (tRing 1 false) 1)
      (chainData (tFrame tWhole))).1 ≠ [] ∧
    (fillChain ([] : List Bytes) 0 8 (chainData (tFrame tWhole))).1 = [] ∧
    (let w := fillChain [tDesc 0x1000] 0 8 (chainData { tFrame tWhole with mac := some .good });
      w.1 ≠ [] ∧ w.2.2.1 = []) ∧
    (let w := fillChain [tDesc 0x1000] 0 8 (chainData (tFrame tWhole));
      w.1 ≠ [] ∧ w.2.2.1 = [] ∧ (tFrame tWhole).mac = none) := by
  decide +kernel

/-- A whole frame of 64 bytes is delivered as 60 bytes in one descriptor with SOP and EOP (R102, R104), and Head moves. -/
theorem test_ring_chain : tNext (exec (.ringChainWrite 1 [tDesc 0x1000] true) (tRing 1 false)) (fun t =>
    memReadN t.net.sram 0x10A 2 == [0x40, 0] && memReadN t.net.sram 0x108 2 == [60, 0]
      && memReadN t.net.sram 0x10C 4 == toLe 4 0x60010000 && ringHead t 1 == 1) = true := by decide +kernel

theorem witness_RingAndFilterWrites :
    ((ringAt (setRing tRun 1 { Ring.reset with unnotified := 1 }) 1).unnotified ≠ 0 ∧ (ringAt tRun 1).unnotified = 0) ∧
    (accepts tRun .tap 0x2140 2 (objBytes 0x2140 2 0x100) ∧ ringHead tRun 0 = ringTail tRun 0 ∧ (ringAt tRun 0).chains = [] ∧
      accepts tRun .tap 0x2141 3 (objBytes 0x2141 3 9) ∧ ringConfigSub 3 = true ∧ ringValueOk 1 3 (leNat (objBytes 0x2141 3 9)) = false) ∧
    (accepts (tRing 1 false) .tap 0x2141 5 (toLe 2 7) ∧ (7 : BitVec 16).toNat < ringSize (tRing 1 false) 1 ∧
      accepts (tRing 1 false) .tap 0x2141 5 (toLe 2 8) ∧ ringSize (tRing 1 false) 1 ≤ (8 : BitVec 16).toNat) ∧
    (accepts tRun .tap 0x2141 2 (objBytes 0x2141 2 0x100) ∧ ringConfigSub 2 = true ∧ ringValueOk 1 2 (leNat (objBytes 0x2141 2 0x100)) = true ∧
      ringDir tRun 1 = 0) ∧
    (accepts (tRing 1 false) .tap 0x2141 2 (objBytes 0x2141 2 0x100) ∧ ringDir (tRing 1 false) 1 ≠ 0) ∧
    (accepts (put tRun 0x2122 1 9) .tap 0x2122 2 (toLe 32 tDropEntry.toNat)) ∧
    (filterOk tRun tDropEntry = true ∧ 8 ≤ selected (setSelected tRun .tap 0x2122 1 9) .tap 0x2122 1 ∧ filterReservedBy tRun 2 9 = false ∧
      bit (filterWord tDropEntry 0) 31 = true ∧ bits (filterWord tDropEntry 0) 30 29 = 2 ∧ accepts tRun .tap 0x2122 2 (toLe 32 tDropEntry.toNat) ∧
      selected tRun .tap 0x2122 1 < 8) ∧
    (accepts tRun .tap 0x2122 2 (toLe 32 0xE0000000) ∧ filterOk tRun 0xE0000000 = false) ∧
    accepts tRun .tap 0x2122 2 (toLe 31 0) ∧ accepts tRun .tap 0x2122 2 (toLe 33 0) := by
  unfold accepts; decide +kernel

/-! ### Witnesses: state tables and Opal (07, 09) -/

/-- The model of `tOpalBody`. -/
def tModel : OpalImage :=
  { gelu := false, nlayer := 0, hlog2 := 0, dblk := 0, nout := 0, window := 0, fres := 0, wfmt := 2, kvfmt := 2, elmask := 1, nscr := 1,
    repl := 1, eps := 0x3F800000, header := tOpalBody.take 64, feedback := List.replicate 64 0, tensor := [] }

/-- The same without events of any layout, as the image holds it. -/
def tCurrent : OpalImage := { tModel with elmask := 0 }

/-- Context 3 Open with the layout and the model. -/
def tOpal : Ctx :=
  { Ctx.reset with image := some { tImage with layouts := [(0, tLayout)], ranges := [(0, 16)], opal := some tCurrent, filters := [(2, 12, 0x80000000)] },
                   weights := some tCurrent }

/-- The same with events. -/
def tLagged : Ctx :=
  { tOpal with image := some { tImage with layouts := [(0, tLayout)], ranges := [(0, 16)], opal := some tModel, filters := [(2, 12, 0x80000000)] },
               weights := some tModel }

/-- Message 8 of frame 5 of context 3, on instrument 2. -/
def tMsg : Msg := { newMsg 5 (tFrame []) 3 3 0 tLayout 42 12 with looked := true, instr := some 2, fate := .admitted }

/-- A state with context 3, message 8, its state access due, and frame 5. -/
def tWork (x : Ctx) (m : Msg) : State :=
  setFrame (setMsg (setAccess (setPort (tCtx .opened x) 2 tUp) 3 [{ opened := 0, items := [8] }]) 8 m) 5 (tFrame [])

theorem witness_StateAccessesAreAtomic :
    nextAccess (tWork tOpal tMsg) 3 = some (8, []) ∧ msgAt (tWork tOpal tMsg) 8 = some tMsg ∧
    (ctxAt (tWork tOpal tMsg) tMsg.ctx).image ≠ none ∧ tMsg.instr = some 2 ∧ domIsOn (tWork tOpal tMsg) 9 = true ∧
    domIsOn State.reset 9 = false ∧ nextAccess tRun 3 = none := by decide +kernel

/-- An uncorrectable row counts and reads as not valid (R231). -/
theorem test_row_error : tNext (exec (.stateAccess 3 .row) (setRow (tWork tOpal tMsg) 2 [(0, 7)])) (fun t =>
    (msgAt t 8).map (·.row) == some [] && val t (cb 3 3) 8 == 1) = true := by decide +kernel

theorem witness_StateClearsAndOldSweeps :
    (accepts tOpen .tap (cb 3 3) 5 (toLe 2 15) ∧ inInstruments tOpen 3 15 = true) ∧
    accepts tOpen .tap (cb 3 3) 5 (toLe 2 0xFFFF) ∧
    (accepts tOpen .tap (cb 3 3) 5 (toLe 2 16) ∧ inInstruments tOpen 3 16 = false) ∧
    accepts tOpen .tap (cb 3 3) 5 (toLe 2 16384) := by
  unfold accepts; decide +kernel

/-- A slot whose stamp is ahead of a base that was stepped back has age 0 (R236). -/
theorem test_old_ahead : tNext (exec .oldSweep { tRun with work := (setSlot tRun 4 { Slot.reset with published := true, stamp := 1 }).work })
    (fun t => !(slotAt t 4).old) = true := by decide +kernel

/-- A slot published 2^31 ns ago is old, one published a nanosecond later is not (R236). -/
theorem test_old : tNext (exec .oldSweep { tRun with
      quartz := (setBase tRun (admBase tRun) { Base.reset with n := 0x80000000 }).quartz,
      work := (setSlot (setSlot tRun 4 { Slot.reset with published := true }) 5 { Slot.reset with published := true, stamp := 1 }).work })
    (fun t => (slotAt t 4).old && !(slotAt t 5).old) = true := by decide +kernel

/-- The message of an S program, decided and with its state access made. -/
def tS : Msg := { tMsg with kind := .s, accessed := true, seq := some 1 }

theorem witness_OpalEventsBecomeStepsOrSkips :
    (msgAt tRun 8 = none ∧ msgAt (tWork tOpal tS) 8 = some tS ∧ tS.seq = some 1 ∧ tS.accessed = true ∧ tS.instr = some 2 ∧ tS.kind = .s ∧
      tS.fate = .admitted ∧ ({ tS with seq := none } : Msg).seq = none ∧ ({ tS with kind := .t } : Msg).kind ≠ .s) ∧
    (tS.issued = false ∧ replicaSet (tWork tOpal tS) 3 = [0] ∧ openMsg tS = true ∧ openMsg { tS with delivered := true } = false) ∧
    replicaSet { tWork tOpal tS with power := State.reset.power } 3 = [] ∧
    isLoaded (tCtx .recovering tOpal) 3 = false ∧
    (isLoaded (tWork tOpal tS) 3 = true ∧ tagCurrent (tWork tOpal tS) tS.tag = true ∧ tagCurrent (tWork tOpal tS) 64 = false) ∧
    (laggedTests (tWork tLagged { tS with kind := .t }) { tS with kind := .t } 0).isSome = true ∧
    laggedTests (setPort (tWork tLagged { tS with kind := .t }) 2 Port.reset) { tS with kind := .t } 0 = none := by
  decide +kernel

/-- Step 6 of instrument 2. -/
def tStep (running : Bool) : OStep :=
  { newStep tS 1 with lane := 0, running := running, weights := some tCurrent, vals := List.replicate 16 0x3C00 }

/-- A state with that step booked or running. -/
def tStepping (running : Bool) : State := setStep (tWork tOpal tS) 6 (some (tStep running))

/-- A model with one layer of width 32, a ring of 32 positions and no window. -/
def tBig : OpalImage := { tCurrent with nlayer := 1, dblk := 1, fres := 31 }

/-- Context 3 with that model and a quota of one megabyte; instrument 2 has a local cache whose next event is 18. -/
def tLocal : State :=
  let s := tCtx .opened { tOpal with image := some { tImage with ranges := [(0, 16)], opal := some tBig }, weights := some tBig }
  setCache (setDir (put s (cb 3 6) 1 0x100000) 2 { Dir.reset with pl := 1 }) 2 { Cache.reset with next := 18 }

/-- A region of context 3: 256 cores by 2 of 2,048 bytes at window address 0, with V and a STATE. -/
def tRegion (state : Nat) : BitVec 256 :=
  BitVec.ofNat 256 (leNat ([BitVec.ofNat 8 (1 + 2 * state), 3] ++ toLe 2 10 ++ toLe 2 0 ++ toLe 2 0 ++ toLe 2 256 ++ toLe 2 2 ++ toLe 4 2048
    ++ toLe 8 0 ++ List.replicate 8 0))

/-- Step 6 on that local cache, booked or running, and the state with it. -/
def tLocalStep (running : Bool) : OStep :=
  { newStep tS 18 with lane := 0, place := 1, ver := 0, running := running, weights := some tBig, vals := List.replicate 16 0x3C00 }

def tLocalStepping (running : Bool) : State := setStep tLocal 6 (some (tLocalStep running))

/-- The directory entry of a remote cache in region 0. -/
def tRemoteDir : Dir := { Dir.reset with pl := 2 }

theorem witness_OpalStepsStartOnTheirLanes :
    (stepAt (tStepping false) 6 = some (tStep false) ∧ tagCurrent (setReg (tStepping false) (cb 3 0) 2 0 1) (tStep false).tag = false) ∧
    (tagCurrent (tStepping false) (tStep false).tag = true ∧ mayBegin (tStepping false) (tStep false) = true) ∧
    (mayBegin (tStepping false) { tStep false with place := 1 } = true ∧
      (dirAt (setDir (tStepping false) 2 { Dir.reset with pl := 1, ver := 1 }) 2).ver ≠ (tStep false).ver) ∧
    (laneOf (tStepping false) (tStep false) = some 0 ∧ (ctxAt (tStepping false) 3).weights = some tCurrent ∧
      (∀ y, y ∈ allSteps (tStepping false) → y.2.running = true → y.2.lane ≠ 0)) ∧
    (stepAt tRun 6 = none ∧ (tStep true).running = true ∧
      mayBegin { tStepping false with power := State.reset.power } { tStep false with place := 1 } = false ∧
      laneOf { tStepping false with power := State.reset.power } (tStep false) = none ∧
      laneOf (setStep (tStepping false) 7 (some { tStep true with instr := 3 })) (tStep false) = some 0 ∧
      (∃ y, y ∈ allSteps (setStep (tStepping false) 7 (some { tStep true with instr := 3 })) ∧ y.2.running = true ∧ y.2.lane = 0)) ∧
    (let s := tLocalStepping false; let x := tLocalStep false; let rows := stepRows tBig (runningStep s x tBig 0 (headerRead s x));
      stepAt s 6 = some x ∧ tagCurrent s x.tag = true ∧ mayBegin s x = true ∧ (dirAt s x.instr).ver = x.ver ∧ laneOf s x = some 0 ∧
      (ctxAt s x.ctx).weights = some tBig ∧ x.place = 1 ∧ tBig.nlayer ≠ 0 ∧ (tStep false).place ≠ 1 ∧
      (readLocal s x.instr tBig rows { bad := [3, 4], corrected := 0 }).1 = [3] ∧
      (readLocal s x.instr tBig rows { bad := [4], corrected := 0 }).1.all (4 ≤ ·) = true) := by
  decide +kernel

/-- Corrected lines of a local cache are counted, and an uncorrectable header discards the step (R302, R318). -/
theorem test_step_faults :
    tNext (exec (.opalStepStart 6 [] 2) (tLocalStepping false))
      (fun t => reg t 0x2700 5 0 == 2 && (stepAt t 6).map (·.running) == some true) = true ∧
    tNext (exec (.opalStepStart 6 [3] 0) (tLocalStepping false)) (fun t => stepAt t 6 == none) = true := by
  decide +kernel

theorem witness_SlotsArePublishedInOrder :
    (stepAt (tStepping true) 6 = some (tStep true) ∧ readsOpen (setMsg (tStepping true) 8 { tS with issued := true }) 6 = false ∧
      isNext (setMsg (tStepping true) 8 { tS with issued := true }) 2 1 = true ∧ tagCurrent (tStepping true) (tStep true).tag = true ∧
      domIsOn (tStepping true) 9 = true ∧ (tStep true).place = 0 ∧ regionServes (tStepping true) 2 0 = true ∧ (tStep true).weights = some tCurrent ∧
      hasRing tCurrent = false ∧ hasRing tBig = true) ∧
    (stepAt (tStepping false) 6 = some (tStep false) ∧ (tStep false).running = false ∧
      tagCurrent (setReg (tStepping true) (cb 3 0) 2 0 1) (tStep true).tag = false ∧ isNext (tStepping true) 2 2 = false ∧
      readsOpen { tRun with flue := { tRun.flue with chans := tabSet Chan.reset [] 0 { Chan.reset with
        outstanding := tabSet none [] 4 (some { type := 1, tag := some 3, arg := 0, purpose := .mantelRead 6 none 0, dx := 0, dy := 0, len := 64, sentAt := 0 }) } } } 6 = true) ∧
    (let s := setDir (setRegion (tStepping true) 0 (tRegion 1)) 2 tRemoteDir;
      (dirAt s 2).ver = 0 ∧ (dirAt (setDir s 2 { tRemoteDir with ver := 1 }) 2).ver ≠ 0 ∧ regionServes s 2 2 = false ∧
      regionServes (setRegion s 0 (tRegion 0)) 2 2 = true) ∧
    (domIsOn State.reset 9 = false ∧ ownerOf tRun 2 = none ∧ (skipsOf tRun 2).find? (fun q => isNext tRun 2 q) = none ∧
      domIsOn (skipEvent tOpen 2 1) 9 = true) ∧
    ((skipsOf (skipEvent tOpen 2 1) 2).find? (fun q => isNext (skipEvent tOpen 2 1) 2 q) = some 1 ∧ ownerOf (skipEvent tOpen 2 1) 2 = some 3) := by
  decide +kernel

/-- A publication writes the values with their sequence number and counts (R234, R292). -/
theorem test_publish : tNext (exec (.slotPublish 6) (setMsg (tStepping true) 8 { tS with issued := true })) (fun t =>
    (slotAt t 2).vals == List.replicate 16 0x3C00 && (slotAt t 2).seq == 1 && reg t (cb 3 5) 3 0 == 1) = true := by decide +kernel

/-- Context 3 with the fragment's header in force and nothing waiting. -/
def tWeights (shadow : Option OpalImage) : State :=
  tKeyed (tCtx .opened { tOpal with weights := some { tModel with elmask := 0 }, shadow := shadow })

/-- Context 3 with a rollout in its scratch slot 0, its model usable on lane 0 as a rollout lane. -/
def tRolling (o : Rollout) : State := put (setRollout (tCtx .opened tOpal) 3 0 o) 0x2600 2 0x8001

theorem witness_WeightsSwitchAndLanesRetire :
    (accepts (tWeights none) .tap (cb 3 5) 0x0A tBoxOpal ∧ stagingFree (tWeights none) = true ∧ mayChange (tWeights none) 3 = true ∧
      tOk (fragmentBody (tWeights none) 3 3 tBoxOpal) (· == tOpalBody) = true ∧
      readOpal tOpalBody = some (some { tModel with elmask := 0 }) ∧ opalTensorOk { tModel with elmask := 0 } tImage.feat = true ∧
      weightsFit (tWeights none) 3 { tModel with elmask := 0 } = true) ∧
    (accepts (tWeights none) .tap (cb 3 5) 0x0A [0] ∧ tOk (fragmentBody (tWeights none) 3 3 [0]) (fun _ => true) = false) ∧
    (accepts (tWeights (some tModel)) .tap (cb 3 5) 0x0B [1] ∧ accepts (tWeights (some tModel)) .tap (cb 3 5) 0x0B [2] ∧
      mayChange (tWeights (some tModel)) 3 = true ∧ (ctxAt (tWeights (some tModel)) 3).shadow = some tModel) ∧
    accepts (tWeights none) .tap (cb 3 5) 0x0B [1] ∧ accepts (tWeights none) .tap (cb 3 5) 0x0B [2] ∧
    (let s := setCtxState (tWeights (some tModel)) 3 .recovering;
      mayChange s 3 = false ∧ accepts s .tap (cb 3 5) 0x0A tBoxOpal ∧ accepts s .tap (cb 3 5) 0x0B [1] ∧ accepts s .tap (cb 3 5) 0x0B [2]) ∧
    (({ tModel with elmask := 0 } : OpalImage).header = tModel.header ∧ ({ tModel with header := [] } : OpalImage).header ≠ tModel.header ∧
      opalTensorOk { tModel with tensor := [0] } tImage.feat = false) ∧
    (workLane tRun (.step 6) = none ∧ workLane (tStepping true) (.step 6) = some (3, 0) ∧
      workLane (tRolling { Rollout.reset with state := .running, lane := some 5 }) (.rollout 3 0) = some (3, 5)) ∧
    bit (val tRun 0x2600 1) 16 = false ∧ bit (val (put tRun 0x2600 1 0x7FFF) 0x2600 1) 15 = false ∧
    stepAt (tStepping true) 6 = some (tStep true) ∧
    bit (val tRun 0x2600 1) 15 = true := by
  unfold accepts; decide +kernel

/-- Lane 15 retired at reset is neither usable nor a rollout lane (R303, R307). -/
theorem test_lane_retire : tNext (exec (.laneRetire 15) tRun) (fun t => val t 0x2600 1 == 0x7FFF && val t 0x2600 7 == 0x8000) = true := by
  decide +kernel

/-- A rollout request of one step for instrument 2 in scratch slot 0. -/
def tRequest (steps : Nat) : Bytes := toLe 2 2 ++ [0, 0] ++ toLe 2 steps ++ toLe 2 0xFFFF ++ List.replicate 8 0

/-- The same with the local cache of `tLocal`. -/
def tBigRolling (o : Rollout) : State := put (setRollout tLocal 3 0 o) 0x2600 2 0x8001

theorem witness_RolloutsRunBesideTheCache :
    (accepts (tRolling Rollout.reset) .tap (cb 3 5) 0x0C (tRequest 1) ∧ (tRequest 1).length = 16 ∧ modelOf (tRolling Rollout.reset) 3 = some tCurrent ∧
      inInstruments (tRolling Rollout.reset) 3 2 = true ∧ leAt (tRequest 1) 6 2 = 0xFFFF ∧ zeroAt (tRequest 1) 8 8 = true ∧
      mayChange (tRolling Rollout.reset) 3 = true ∧ rolloutLanes (tRolling Rollout.reset) 3 ≠ []) ∧
    accepts (tRolling Rollout.reset) .tap (cb 3 5) 0x0C (List.replicate 15 0) ∧
    accepts (tRolling Rollout.reset) .tap (cb 3 5) 0x0C (List.replicate 17 0) ∧
    (let o := { Rollout.reset with state := .running, steps := 2, instr := 2 };
      let s := tRolling o;
      let b := tBigRolling { o with sf := 1, valid := [1] };
      let r := setRegion (setDir b 2 tRemoteDir) 0 (tRegion 0);
      rolloutAt s 3 0 = o ∧ o.waits = none ∧ o.done < o.steps ∧ ¬({ o with waits := some ([6], []) } : Rollout).waits = none ∧
      (ctxAt s 3).weights = some tCurrent ∧ (ctxAt b 3).weights = some tBig ∧ (ctxAt b 3).image ≠ none ∧ tCurrent.nlayer = 0 ∧ tBig.nlayer ≠ 0 ∧
      ((dirAt s 2).pl ≠ 1 ∧ (dirAt s 2).pl ≠ 2) ∧ rolloutLanes s 3 ≠ [] ∧
      ((dirAt b 2).pl = 1 ∧ rolloutLanes b 3 ≠ [] ∧ (∀ d, d ∈ storeDomains b 1 → domIsOn b d = true) ∧ regionServes b 2 1 = true) ∧
      ((dirAt r 2).pl = 2 ∧ rolloutLanes r 3 ≠ [] ∧ (∀ d, d ∈ storeDomains r 2 → domIsOn r d = true) ∧ regionServes r 2 2 = true) ∧
      o.reading = false ∧ ({ o with reading := true } : Rollout).reading = true ∧ rolloutReads r 3 0 = false ∧
      rolloutReads (readRollouts r 3 0 tBig) 3 0 = true ∧
      (readLocal b 2 tBig (rolloutRows tBig o 1) { bad := [3], corrected := 0 }).1 = [3] ∧
      (readLocal b 2 tBig (rolloutRows tBig o 1) { bad := [], corrected := 0 }).1 = []) ∧
    (let b := fun n : BitVec 32 => setCache (tBigRolling Rollout.reset) 2 { Cache.reset with next := n };
      tBig.fres ≤ ((cacheAt (b 40) 2).next - (Rollout.reset.sf + 1)).toNat ∧
      ¬(tBig.fres ≤ ((cacheAt (b 2) 2).next - (Rollout.reset.sf + 1)).toNat ∧ tBig.nlayer ≠ 0)) ∧
    (mayChange (setCtxState (tRolling Rollout.reset) 3 .recovering) 3 = false ∧ rolloutLanes (put (tRolling Rollout.reset) 0x2600 2 0) 3 = []) ∧
    ((rolloutAt (tRolling { Rollout.reset with state := .running }) 3 0).state = .running ∧ (rolloutAt (tRolling Rollout.reset) 3 0).state = .idle) ∧
    (readable (tRolling { Rollout.reset with state := .done }) .tap (cb 3 5) 0x0E ∧
      selected (tRolling { Rollout.reset with state := .done }) .tap (cb 3 5) 0x0D = 0) := by
  unfold accepts readable; decide +kernel

/-- The last step of a rollout ends it Done with one result (R296, R298). -/
theorem test_rollout : tNext (exec (.rolloutStep 3 ⟨0, [], 0⟩)
    (tRolling { Rollout.reset with state := .running, steps := 1 })) (fun t =>
    (rolloutAt t 3 0).state == .done && (rolloutAt t 3 0).results.length == 1) = true := by decide +kernel

/-! ### Witnesses: Mantel (10) -/

/-- A migration of instrument 2 to region 0. -/
def tMig (phase : MigPhase) (sc : BitVec 32) (copies : Nat) : Migration :=
  { ctx := 3, dest := 2, region := 0, addr := 0, sc := sc, copies := copies, phase := phase, bad := [], badHeader := false }

def tMoving (g : Migration) : State := setMig (setDir tLocal 2 { Dir.reset with pl := 1, mig := true }) 2 (some g)

/-- The request of such a migration. -/
def tMigrate : Bytes := [2, 0, 2, 0, 0, 0, 0, 0]

/-- Banks that report nothing. -/
def tClean : LineFaults := { bad := [], corrected := 0 }

/-- That local cache while a request with a purpose is outstanding on channel 0. -/
def tAsked (why : Purpose) : State :=
  { tLocal with flue := { tLocal.flue with chans := tabSet Chan.reset [] 0 { Chan.reset with
    outstanding := tabSet none [] 4 (some { type := 0x02, tag := some 3, arg := 0, purpose := why, dx := 0, dy := 0, len := 64, sentAt := 0 }) } } }

/-- A state in which no row of a bank has a spare left, and one uncorrectable line retires a row. -/
def tSpareless (s : State) : State :=
  put { s with store := { s.store with retiredRows := (List.range 6).flatMap fun b => List.replicate 128 (b, 8191) } } 0x2C20 4 0x10001

theorem witness_MigrationsMoveCaches :
    (accepts (setRegion tLocal 0 (tRegion 0)) .tap (cb 3 6) 8 tMigrate ∧ readMigrate tMigrate = some ⟨2, 2, 0⟩ ∧
      migrateInRange (setRegion tLocal 0 (tRegion 0)) 3 ⟨2, 2, 0⟩ = true ∧ mayChange tLocal 3 = true ∧ migrations tLocal < 16 ∧
      (migrateRoom (setRegion tLocal 0 (tRegion 0)) 3 ⟨2, 2, 0⟩).isSome = true ∧
      migrateRoom (setRegion (setDir tLocal 2 { Dir.reset with pl := 2 }) 0 (tRegion 0)) 3 ⟨2, 1, 0⟩ ≠ none ∧
      migrateRoom (put (setDir tLocal 2 { Dir.reset with pl := 2 }) (cb 3 6) 1 0) 3 ⟨2, 1, 0⟩ = none) ∧
    (migrateInRange (setRegion (setDir tLocal 2 { Dir.reset with pl := 1, mig := true }) 0 (tRegion 0)) 3 ⟨2, 2, 0⟩ = true ∧
      (dirAt (setDir tLocal 2 { Dir.reset with pl := 1, mig := true }) 2).mig = true) ∧
    (migAt (tMoving (tMig .copying 2 1)) 2 = some (tMig .copying 2 1) ∧ modelOf (tMoving (tMig .copying 2 1)) 3 = some tBig ∧
      min ((cacheAt (tMoving (tMig .copying 2 1)) 2).next - 2).toNat (ringLen tBig) = 16 ∧
      min ((cacheAt (tMoving (tMig .copying 1 8)) 2).next - 1).toNat (ringLen tBig) = 17 ∧ carrying (tMoving (tMig .copying 2 1)) 2 = false ∧
      migAt (noteCarried (tMoving (tMig .copying 2 1)) 2 (tMig .copying 2 1) (ringPositions tBig) tClean).2 2 ≠ none ∧ migAt tRun 2 = none ∧
      (dirAt tRun 2).pl ≠ 1) ∧
    ((tMig .locking 2 1).phase ≠ .copying ∧ (tMig .copying 2 1).phase ≠ .locking ∧ (tMig .copying 2 1).phase ≠ .locked ∧
      carrying (tAsked (.migrate 2 none 0)) 2 = true ∧ carrying (tMoving (tMig .locked 2 1)) 2 = false ∧
      migAt (noteCarried (tMoving (tMig .locked 2 1)) 2 (tMig .locked 2 1) [] tClean).2 2 ≠ none ∧ (dirAt (tMoving (tMig .locked 2 1)) 2).pl = 1) ∧
    (let s := tSpareless (tMoving (tMig .copying 2 1)); let r := noteCarried s 2 (tMig .copying 2 1) (ringPositions tBig) { bad := [4], corrected := 0 };
      migAt s 2 = some (tMig .copying 2 1) ∧ migAt r.2 2 = none) ∧
    (sourceBusy (tMoving (tMig .locking 2 1)) 2 = false ∧
      sourceBusy (setStep (tMoving (tMig .locking 2 1)) 6 (some (tStep false))) 2 = true) ∧
    migAt (tMoving (tMig .locked 2 1)) 2 = some (tMig .locked 2 1) ∧
    sourceOpen tRun 2 = false ∧
    (let s := tAsked (.mantelRow 2 0 0x400);
      sourceOpen { s with store := { s.store with releasing := tabSet none [] 2 (some (2, 0x400)) } } 2 = true) := by
  unfold accepts; decide +kernel

/-- A row that the source cannot give does not reach the destination, though its position was VALID there (R318, R323). -/
theorem test_migrate_lost : tNext (exec (.migrateSwitch ⟨2, tClean⟩)
    (setCache (tMoving { tMig .locked 2 1 with bad := [5] }) 2 { Cache.reset with next := 18, valid := [4, 5] }))
      (fun t => (cacheAt t 2).valid == [4]) = true := by decide +kernel

/-- The switch raises the placement version and counts a migration (R323). -/
theorem test_migrate_switch : tNext (exec (.migrateSwitch ⟨2, tClean⟩) (tMoving (tMig .locked 2 1))) (fun t =>
    (dirAt t 2).pl == 2 && (dirAt t 2).ver == 1 && !(dirAt t 2).mig && val t (cb 3 6) 0x0B == 1) = true := by decide +kernel

theorem witness_RegionsQuotasAndFailedWrites :
    (accepts tRun .tap 0x2700 8 (toLe 32 (tRegion 0).toNat) ∧ regionReserved (tRegion 0) = true ∧ regionV (tRegion 0) = true ∧
      regionOk tRun 0 (tRegion 0) 192000 = true ∧ regionOk tRun 0 (tRegion 0) 192001 = false ∧ regionV (regionAt tRun 0) = false) ∧
    accepts tRun .tap 0x2700 8 (List.replicate 31 0) ∧
    (regionV (regionAt (setRegion tRun 5 (tRegion 1)) 5) = true ∧ regionState (regionAt (setRegion tRun 5 (tRegion 1)) 5) = 1 ∧
      oldRequests (setRegion tRun 5 (tRegion 1)) (tRegion 1) = false ∧ regionV (regionAt tRun 5) = false ∧ regionState (tRegion 0) ≠ 1 ∧
      oldRequests (setRegion (tCtx .recovering { Ctx.reset with td := some (tTd .awaitGen) }) 5 (tRegion 1)) (tRegion 1) = true) ∧
    (regionReserved (tRegion 0 ||| 8) = false ∧ accepts tRun .tap 0x2700 8 (List.replicate 33 0) ∧
      ctxState (setRegion tLocal 0 (tRegion 0)) (regionCtx (tRegion 0)) ≠ .free ∧ selected (setRegion tLocal 0 (tRegion 0)) .tap 0x2700 7 = 0) ∧
    (accepts tRun .tap (cb 3 6) 1 (toLe 4 64) ∧ bytesIn tRun 3 1 = 0 ∧ localCapacity tRun = 201326592 ∧
      ((allCtxs.filter (· ≠ 3)).map fun k => val tRun (cb k 6) 1).sum = 0) ∧
    accepts tRun .tap (cb 3 6) 1 (toLe 4 201326656) ∧
    (hasRemote (setDir tLocal 2 tRemoteDir) 2 = true ∧ ownerOf (setDir tLocal 2 tRemoteDir) 2 = some 3 ∧ hasRemote tLocal 2 = false ∧
      ownerOf tRun 2 = none) := by
  unfold accepts; decide +kernel

/-- A probe 1 ps slower than 180 ns + 1.2 ns · H refuses the region (R312). -/
theorem test_region : tNext (exec (.regionDescriptorWrite .tap (toLe 32 (tRegion 0).toNat) 192001) tRun)
    (fun t => t.sys.out == [.response .tap 0x2700 8 abRange []]) = true := by decide +kernel

theorem witness_BanksRetireAndSpaceIsLaidAgain :
    sparesLeft tRun 5 = 128 ∧
    sparesLeft { tRun with store := { tRun.store with retiredRows := List.replicate 128 (5, 8191) } } 5 = 0 ∧
    bit (val tRun 0x2700 1) 5 = true ∧ bit (val (put tRun 0x2700 1 0x1F) 0x2700 1) 5 = false ∧
    { tRun with store := { tRun.store with relaying := true } }.store.relaying = true ∧ tRun.store.relaying = false := by decide +kernel

/-- The lines of a row that could not be copied read as uncorrectable (R329): line 5 of row 1 of bank 0 is line 16·6·4 + 4·6 + 1. -/
theorem test_spare : tNext (exec (.spareRowReplace 0 ⟨1, [5]⟩) tRun) (fun t => t.store.badLines == [409]) = true := by decide +kernel

/-- Without one of six banks the local capacity is five sixths, and every quota shrinks with it (R308, R330). -/
theorem test_bank : tNext (exec (.bankRetire 5) (put tRun (cb 3 6) 1 6400)) (fun t =>
    val t 0x2700 1 == 0x1F && val t 0x2700 2 == 167772160 && val t (cb 3 6) 1 == 5312) = true := by decide +kernel

/-! ### Witnesses: Garnet (08) -/

/-- A rule that always decides for a choice. -/
def tRule (op : Nat) (choice : BitVec 16) : Rule :=
  { op := op, testA := 0x10, testB := 0, thrA := 0x40000000, thrB := 0, choice := choice }

/-- One tree of depth 1, with the leaves 1.0 and 2.0. -/
def tEnsemble (argmax : Bool) (rules : List Rule) : Ensemble :=
  { depth := 1, lw := 1, argmax := argmax, ntrees := 1, pw := 1, bias := [0, 0, 0, 0], toff := 0, rules := rules,
    trees := [{ nodes := [0], leaves := [[0x3C00], [0x4000]] }], raw := [] }

/-- A first rule that a score of 1.0 fails, a second that always decides, and the end of the list. -/
def tRules : List Rule := [tRule 1 5, tRule 2 6, tRule 0 0, tRule 0 0, tRule 2 7]

theorem witness_FirstDecidingRuleGivesTheChoice :
    (tRules[1]? = some (tRule 2 6) ∧ (tRule 1 5).op = 1 ∧ testHolds [0x3F800000] (tRule 1 5).testA (tRule 1 5).thrA = false ∧
      testHolds [0x40000000] (tRule 1 5).testA (tRule 1 5).thrA = true) ∧
    (∀ j q, j < 0 → tRules[j]? = some q → q.op = 1) ∧
    ltVal (dec32 0x3F800000) (dec32 0x40000000) = true ∧
    dec32 0x7FC00000 = .nan := by
  refine ⟨by decide +kernel, fun j q h => absurd h (Nat.not_lt_zero j), by decide +kernel, by decide +kernel⟩

/-- A threshold that is met holds (R262); the first rule in order decides. -/
theorem test_rules : decideScore (tEnsemble false tRules) [0x40000000, 0, 0, 0] = (5, 0) ∧
    decideScore (tEnsemble false tRules) [0x3F800000, 0, 0, 0] = (6, 1) ∧ decideScore (tEnsemble true tRules) [0x7FC00000, 0, 0, 0] = (7, 4) := by
  decide +kernel

/-- Message 8 of context 3 in Garnet, its ensemble in slot 0. -/
def tGarnetMsg : Msg := { tMsg with accessed := true }

def tGarnet (e : Ensemble) (x : Msg) : State :=
  setEns (tWork tOpal x) 3 0 { state := .active, ens := some e, place := [(0, 0)], width := 1, damaged := false, lost := [] }

theorem witness_GarnetDecidesMessages :
    (msgAt (tGarnet (tEnsemble false tRules) tGarnetMsg) 8 = some tGarnetMsg ∧ inGarnet tGarnetMsg = true ∧
      passesAt (tEnsemble false tRules) 1 = 1 ∧ tGarnetMsg.pass = 0) ∧
    (treesReady (tGarnet (tEnsemble false tRules) tGarnetMsg) (ensAt (tGarnet (tEnsemble false tRules) tGarnetMsg) 3 0) = true ∧
      treesReady { tGarnet (tEnsemble false tRules) tGarnetMsg with power := State.reset.power } (ensAt (tGarnet (tEnsemble false tRules) tGarnetMsg) 3 0)
        = false ∧ widthOf tGarnetMsg (ensAt (tGarnet (tEnsemble false tRules) tGarnetMsg) 3 0) = 1 ∧ 1 ≤ ({ tGarnetMsg with pass := 1 } : Msg).pass) ∧
    (holdsWord (ensAt (tGarnet (tEnsemble false tRules) tGarnetMsg) 3 0) 0 0 = true ∧
      holdsWord (ensAt (tGarnet (tEnsemble false tRules) tGarnetMsg) 3 0) 0 2 = false) ∧
    inGarnet { tGarnetMsg with pass := 1, sums := [0x3F800000] } = true ∧
    (decideScore (tEnsemble false tRules) (scoreOf (tEnsemble false tRules) [0x3F800000]).1).2 ≠ 0x1F ∧
    (decideScore (tEnsemble false [tRule 0 0]) (scoreOf (tEnsemble false [tRule 0 0]) [0x3F800000]).1).2 = 0x1F := by
  decide +kernel

/-- A corrected error of a tree's word counts; an uncorrectable one makes a no-send that counts (R270). -/
theorem test_tree_error :
    tNext (exec (.treeMemoryError 8 0 1 .corrected) (tGarnet (tEnsemble false tRules) tGarnetMsg)) (fun t =>
      reg t 0x2500 4 0 == 1 && (msgAt t 8).map (·.delivered) == some false) = true ∧
    tNext (exec (.treeMemoryError 8 0 1 .uncorrectable) (tGarnet (tEnsemble false tRules) tGarnetMsg)) (fun t =>
      reg t (cb 3 4) 0xA 0 == 1 && (msgAt t 8).map (·.delivered) == some true) = true := by decide +kernel

/-- A sample without the feature goes where MDIR points, here left (R249), and its leaf is the sum (R260). -/
theorem test_pass : tNext (exec (.garnetPass 8) (tGarnet (tEnsemble false tRules) tGarnetMsg)) (fun t =>
    (msgAt t 8).map (·.sums) == some [0x3F800000]) = true := by decide +kernel

/-- A list that ends without a decision counts, and the choice is no reply (R262, R264). -/
theorem test_no_rule : tNext (exec (.treeDecision 8) (tGarnet (tEnsemble false [tRule 0 0]) { tGarnetMsg with pass := 1, sums := [0x3F800000] }))
    (fun t => reg t (cb 3 4) 9 0 == 1 && ((msgAt t 8).bind (·.record)).map (·.choice) == some 0xFFFF) = true := by decide +kernel

/-- A valid UDP template to port 2 whose four-byte slot gives quantity and price from score 0 of the record. -/
def tTemplate : Template :=
  { valid := true, l4 := 1, sess := true, ucsum0 := false, port := 2, len := 60, nins := 1, session := 7, qins := 0, pins := 0,
    kwait := 0xFFFF, kinc := 0xFFFF, kexp := 0xFFFF, kamt := 0, kpoint := 0, kstep := 1,
    slots := [{ off := 50, src := 1, width := 4, be := true, round := true, sel := 0, sel2 := 0 }], body := List.replicate 60 0 }

/-- The image of `tOpal` with that template. -/
def tChoices : Image :=
  { tImage with layouts := [(0, tLayout)], ranges := [(0, 16)], opal := some tCurrent, filters := [(2, 12, 0x80000000)],
                chim := { templates := [tTemplate], sessmask := 128, rent := 4, raw := [] } }

/-- Context 3 with ensemble slots: 0 in a state, the others Empty; program entry 0 names slot 1. -/
def tSlots (st : EnsState) : State :=
  tKeyed (setEns (tCtx .opened { tOpal with image := some tChoices, progs := tabSet none [] 0 (some 1) }) 3 0
    { state := st, ens := some (tEnsemble false tRules), place := [(7, 0)], width := 1, damaged := false, lost := [] })

theorem witness_EnsemblesLoadSwitchAndMove :
    (accepts (put (tSlots .loaded) (cb 3 4) 3 0) .tap (cb 3 4) 5 tBoxEns ∧ stagingFree (tSlots .loaded) = true ∧
      mayChange (tSlots .loaded) 3 = true ∧ (ensAt (tSlots .loaded) 3 0).state ≠ .empty) ∧
    (accepts (tSlots .empty) .tap (cb 3 4) 5 tBoxEns ∧ (ensAt (tSlots .empty) 3 0).state = .empty ∧
      tOk (fragmentBody (tSlots .empty) 2 3 tBoxEns) (· == tEnsBody) = true ∧
      (match fragmentEnsemble (tSlots .empty) tChoices tEnsBody with
        | none => false
        | some e => (placeEnsemble (tSlots .empty) 3 e).isSome) = true) ∧
    (accepts (tSlots .loaded) .tap (cb 3 4) 6 [1] ∧ (ensAt (tSlots .active) 3 0).state = .active ∧
      (ensAt (tSlots .draining) 3 0).state = .draining) ∧
    (accepts (tSlots .loaded) .tap (cb 3 4) 7 (toLe 2 0) ∧ progAt (tSlots .loaded) 3 0 = some 1 ∧
      (match switchBounds (tSlots .loaded) 3 0 0 with | [b] => decide (b.1 ≤ b.2) | _ => false) = true) ∧
    (misplaced (tSlots .loaded) (ensAt (tSlots .loaded) 3 0) = false ∧
      misplaced (put (tSlots .loaded) 0x2500 2 0x80) (ensAt (tSlots .loaded) 3 0) = true) ∧
    (let s := put (tSlots .loaded) 0x2500 2 0x80; let x := ensAt s 3 0;
      x.ens = some (tEnsemble false tRules) ∧ (placeEnsemble (setEns s 3 0 { x with place := [] }) 3 (tEnsemble false tRules)).isSome = true ∧
      (placeEnsemble (setEns (put s 0x2500 1 0) 3 0 { x with place := [] }) 3 (tEnsemble false tRules)).isNone = true ∧ (ensAt s 3 1).ens = none) ∧
    ((ensAt (tSlots .loaded) 3 0).state = .loaded ∧ progAt (tSlots .loaded) 3 1 = none ∧ switchBounds (tSlots .loaded) 3 1 0 = [] ∧
      (match switchBounds (setEns (tSlots .loaded) 3 0 { ensAt (tSlots .loaded) 3 0 with ens := some { tEnsemble false tRules with ntrees := 64 } }) 3 0 0 with
        | [b] => decide (b.2 < b.1) | _ => false) = true ∧
      mayChange (setCtxState (tSlots .loaded) 3 .recovering) 3 = false ∧ accepts (setCtxState (tSlots .loaded) 3 .recovering) .tap (cb 3 4) 7 (toLe 2 0)) ∧
    (sliceRetired tRun 511 = false ∧ sliceRetired (put tRun 0x2500 2 1) 0 = true ∧ (7, 0) ∈ (ensAt (tSlots .loaded) 3 0).place) := by
  unfold accepts; decide +kernel

/-- A fragment fills the selected Empty slot (R266). -/
theorem test_ensemble_load : tNext (exec (.ensembleLoad .tap 3 tBoxEns) (tSlots .empty)) (fun t =>
    (ensAt t 3 0).state == .loaded && (ensAt t 3 0).width == 1) = true := by decide +kernel

/-- A retired slice leaves 511 usable ones (R255, R271). -/
theorem test_slice : tNext (exec (.sliceRetire 511) tRun) (fun t => val t 0x2500 1 == 511) = true := by decide +kernel

/-! ### Witnesses: the Hearth's units (11, 12) -/

/-- A unit entry without immediates. -/
def tEntry (kind op mode count sel : Nat) : UnitEntry :=
  { kind := kind, op := op, flags := 0, initn := 0, mode := mode, count := count, sel := sel, imm := 0, raw := [] }

/-- A token of context 3 with data and P. -/
def tTok (d : BitVec 64) (p : Bool) : Token := { tag := 3, p := p, data := d }

/-- A running configuration of context 3 with one unit at site 64, tokens at its inputs, and circuits from its outputs to
the inputs of site 65; the spread entry of the site has two credits. -/
def tFire (e : UnitEntry) (a b c : List Token) : State :=
  let w (out : Nat) : Circuit := { src := 64, out := out, dst := 65, inp := out, slot := 0, width := 0, nhop := 0, qx := 0, route := 0 }
  let sp : Spread := { site := 64, circ := 0, program := 0, epoch := 7, x := 1, y := 2, hop := 3, rcirc := 4, cred := 2, rtime := 0, rsrc := 0, tpm := 1 }
  let g : HConfig := { progs := [], units := [(64, e)], unused := [], circuits := [w 0, w 1], spreads := [sp], mems := [], data := [], figures := [] }
  let q := tabSet [] (tabSet [] (tabSet [] [] (qkey 64 0) a) (qkey 64 1) b) (qkey 64 2) c
  let s := setMsg (tCtx .opened { tOpal with run := { HRun.reset with queues := q } }) 8 { tMsg with kind := .h }
  setHslot s 0 (some { state := .active, owner := 3, cfg := some g, fromImage := true })

/-- The tokens that have arrived at site 65 from output `out`. -/
def tOut (s : State) (out : Nat) : List (BitVec 64 × Bool) := (queueAt (ctxAt s 3).run 65 out).map fun t => (t.data, t.p)

/-- Whether the unit at site 64 is ready with its inputs and both its outputs have room. -/
def tReady (s : State) (kind op : Nat) (ins : List Nat) : Bool :=
  match unitIn s 64 kind op with
  | none => false
  | some u => match operands u ins with
    | none => false
    | some os => siteOk 64 && !tagsDiffer os && (foreignTo s u os).isNone && outputRoom u.cfg u.run u.quota u.site 0
        && outputRoom u.cfg u.run u.quota u.site 1

/-- Whether the unit at site 64 has its inputs, both its outputs have room, and its tokens are those of context 4 (R24). -/
def tForeign (s : State) (kind op : Nat) (ins : List Nat) : Bool :=
  match unitIn s 64 kind op with
  | none => false
  | some u => match operands u ins with
    | none => false
    | some os => !tagsDiffer os && foreignTo s u os = some 4 && outputRoom u.cfg u.run u.quota u.site 0
        && outputRoom u.cfg u.run u.quota u.site 1

theorem tReady_sound {s : State} {kind op : Nat} {ins : List Nat} (h : tReady s kind op ins = true) :
    ∃ u os, unitReady s 64 kind op ins u os ∧ outputRoom u.cfg u.run u.quota u.site 0 = true ∧
      outputRoom u.cfg u.run u.quota u.site 1 = true := by
  unfold tReady at h
  split at h
  · cases h
  · rename_i u hu
    split at h
    · cases h
    · rename_i os ho
      simp only [Bool.and_eq_true, Bool.not_eq_true', Option.isNone_iff_eq_none] at h
      exact ⟨u, os, ⟨h.1.1.1.1, hu, ho, h.1.1.1.2, h.1.1.2⟩, h.1.2, h.2⟩

/-- A unit of opcode `op` with one token true at each of its inputs. -/
def tAll (kind op mode count sel : Nat) : State :=
  tFire (tEntry kind op mode count sel) [tTok 1 true] [tTok 1 true] [tTok 1 true]

/-- Every opcode of MAC and SFU, and the words of PRED, meets its hypotheses; a missing token and two tags too. -/
theorem witness_ArithmeticUnitsEmitTheirResults :
    (([1, 2, 3, 4, 6].all fun op => tReady (tAll 1 op 0 0 0) 1 op [0, 1]) && tReady (tAll 1 5 0 0 0) 1 5 [0]
      && ([7, 8, 9].all fun op => tReady (tAll 2 op 0 0 0) 2 op [0, 1]) && tReady (tAll 2 11 0 0 0) 2 11 [0]
      && ([1, 2, 3, 4, 5, 6, 7, 8, 9].all fun op => tReady (tAll 3 op 0 0 0) 3 op [0])) = true ∧
    (match unitIn (tFire (tEntry 1 1 0 0 0) [] [tTok 1 true] []) 64 1 1 with | some u => (operands u [0, 1]).isNone | none => false) = true ∧
    (match unitIn (tFire (tEntry 1 1 0 0 0) [tTok 1 true] [{ tTok 1 true with tag := 67 }] []) 64 1 1 with
      | some u => (match operands u [0, 1] with | some os => tagsDiffer os | none => false) | none => false) = true ∧
    (match unitIn (tAll 1 4 0 1 0) 64 1 4 with | some u => decide (tabGet 0 u.run.taken u.site ≠ u.entry.count) | none => false) = true := by
  decide +kernel

/-- 1.5 · 2.0 = 3.0, 1.5 + 2.0 = 3.5, 1.5 − 2.0 = −0.5; a result has the AND of the P bits (R344, R349). -/
theorem test_mac : ((([(1, 0x40400000), (2, 0x40600000), (3, 0xBF000000)] : List (Nat × BitVec 64)).all fun x =>
    tNext ([Instr.mul 64, .add 64, .sub 64].getD (x.1 - 1) (.mul 64) |> fun i =>
      exec i (tFire (tEntry 1 x.1 0 0 0) [tTok 0x3FC00000 true] [tTok 0x40000000 false] []))
      fun t => tOut t 0 == [(x.2, false)])) = true := by decide +kernel

/-- Two lanes are multiplied apart, and DOT adds their products with the last token (R348, R350): 1.5 · 2 + 1 · 4 = 7. -/
theorem test_dot : tNext (exec (.mul 64) (tFire (tEntry 1 1 1 0 0) [tTok 0x3F8000003FC00000 true] [tTok 0x4080000040000000 true] []))
      (fun t => tOut t 0 == [(0x4080000040400000, true)]) = true ∧
    tNext (exec (.dot 64) (tFire (tEntry 1 4 1 0 0) [tTok 0x3F8000003FC00000 true] [tTok 0x4080000040000000 true] []))
      (fun t => tOut t 0 == [(0x40E00000, true)]) = true ∧
    tNext (exec (.acc 64) (tFire (tEntry 1 5 1 0 0) [tTok 0x3F8000003FC00000 true] [] []))
      (fun t => tOut t 0 == [(0x40200000, true)]) = true := by decide +kernel

/-- The words of PRED and IMUL: wrapping product, XOR, arithmetic shift, difference, and the greater of two UINT64. -/
theorem test_words : ((([(.imul 64, 1, 6, 0, 0xFFFFFFFFFFFFFFFE, 3, 0xFFFFFFFFFFFFFFFA), (.logic 64, 2, 7, 2, 0xF0, 0xFF, 0x0F),
      (.shift 64, 2, 8, 2, 0x8000000000000000, 63, 0xFFFFFFFFFFFFFFFF), (.iadd 64, 2, 9, 1, 3, 5, 0xFFFFFFFFFFFFFFFE),
      (.minmax 64, 2, 10, 5, 3, 0xFFFFFFFFFFFFFFFF, 0xFFFFFFFFFFFFFFFF)] : List (Instr × Nat × Nat × Nat × BitVec 64 × BitVec 64 × BitVec 64)).all
    fun x => tNext (exec x.1 (tFire (tEntry x.2.1 x.2.2.1 0 0 x.2.2.2.1) [tTok x.2.2.2.2.1 true] [tTok x.2.2.2.2.2.1 true] []))
      fun t => tOut t 0 == [(x.2.2.2.2.2.2, true)])) = true := by decide +kernel

/-- The special operands of R359 at +0, and RECIP and SQRT of 4.0; binary32 1.0 to binary16 (R353). -/
theorem test_sfu : ((([(.exp 64, 3, 1, 0, 0, 0x3F800000), (.log 64, 3, 2, 0, 0, 0xFF800000), (.recip 64, 3, 3, 0, 0x40800000, 0x3E800000),
      (.rsqrt 64, 3, 4, 0, 0, 0x7F800000), (.sqrt 64, 3, 5, 0, 0x40800000, 0x40000000), (.tanh 64, 3, 6, 0, 0x80000000, 0x80000000),
      (.sigmoid 64, 3, 7, 0, 0, 0x3F000000), (.silu 64, 3, 8, 0, 0xFF800000, 0x80000000), (.gelu 64, 3, 9, 0, 0x7F800000, 0x7F800000),
      (.cvt 64, 2, 11, 1, 0x3F800000, 0x3C00)] : List (Instr × Nat × Nat × Nat × BitVec 64 × BitVec 64)).all
    fun x => tNext (exec x.1 (tFire (tEntry x.2.1 x.2.2.1 0 0 x.2.2.2.1) [tTok x.2.2.2.2.1 true] [] []))
      fun t => tOut t 0 == [(x.2.2.2.2.2, true)])) = true := by decide +kernel

/-- Every PRED opcode, TAB, and the clauses of MERGE. -/
theorem witness_PredUnitsChooseAndRepeat :
    (tReady (tAll 2 1 0 0 0) 2 1 [0, 1] && tReady (tAll 2 2 0 0 0) 2 2 [0, 1, 2] && tReady (tAll 2 3 0 0 0) 2 3 [0, 2]
      && tReady (tAll 2 4 0 0 0) 2 4 [0, 2] && tReady (tAll 2 6 0 0 0) 2 6 [0, 1] && tReady (tAll 2 10 0 0 0) 2 10 [0, 1]
      && tReady (tAll 2 12 0 0 0) 2 12 [0] && tReady (tAll 2 13 0 0 0) 2 13 [0] && tReady (tAll 3 0x10 0 0 0) 3 0x10 [0]) = true ∧
    tReady (tFire (tEntry 2 5 0 0 0) [] [tTok 1 true] [tTok 1 false]) 2 5 [2, 1] = true ∧
    tReady (tFire (tEntry 2 5 0 1 0) [tTok 1 true] [] [tTok 1 true]) 2 5 [2, 0] = true := by
  decide +kernel

/-- CMP "less than" of 1.5 and 2.0 keeps A and makes P 1; STEER with C.P 0 writes O1; PLOG with the table 8 is an AND. -/
theorem test_pred : tNext (exec (.cmp 64) (tFire (tEntry 2 1 0 0 0) [tTok 0x3FC00000 true] [tTok 0x40000000 true] []))
      (fun t => tOut t 0 == [(0x3FC00000, true)]) = true ∧
    tNext (exec (.steer 64) (tFire (tEntry 2 4 0 0 0) [tTok 9 true] [] [tTok 0 false]))
      (fun t => tOut t 0 == [] && tOut t 1 == [(9, true)]) = true ∧
    tNext (exec (.sel 64) (tFire (tEntry 2 2 0 0 0) [tTok 9 true] [tTok 5 true] [tTok 0 false])) (fun t => tOut t 0 == [(5, true)]) = true ∧
    tNext (exec (.drop 64) (tFire (tEntry 2 3 0 0 0) [tTok 9 true] [] [tTok 0 false]))
      (fun t => tOut t 0 == [] && (queueAt (ctxAt t 3).run 64 0).isEmpty) = true ∧
    tNext (exec (.plog 64) (tFire (tEntry 2 6 0 0 8) [tTok 9 true] [tTok 5 false] [])) (fun t => tOut t 0 == [(9, false)]) = true := by
  decide +kernel

/-- IDX with COUNT 0 emits index 0 with P 0, REP one copy; a feedback take past ITMAX 0 is the cause 0x0205 (R356, R357). -/
theorem test_repeat : tNext (exec (.idx 64) (tFire (tEntry 2 12 0 0 0) [tTok 9 true] [] [])) (fun t => tOut t 0 == [(0, false)]) = true ∧
    tNext (exec (.rep 64) (tFire (tEntry 2 13 0 1 0) [tTok 9 true] [] []))
      (fun t => tOut t 0 == [(9, true)] && (queueAt (ctxAt t 3).run 64 0).length == 1) = true ∧
    tNext (exec (.merge 64) (tFire (tEntry 2 5 0 0 0) [tTok 9 true] [] [tTok 0 true]))
      (fun t => ctxState t 3 == .recovering && val t (cb 3 0) 0x0A == 0x0205) = true ∧
    tNext (exec (.merge 64) (tFire (tEntry 2 5 0 0 0) [] [tTok 7 true] [tTok 0 false])) (fun t => tOut t 0 == [(7, true)]) = true ∧
    tNext (exec (.tab 64) (tFire (tEntry 3 0x10 0 0 0) [tTok 300 true] [] [])) (fun t => tOut t 0 == [(0, true)]) = true := by
  decide +kernel

/-- Every MEM opcode, at the last word and past it; STB before and at the end of a block. -/
theorem witness_MemUnitsLoadAndStore :
    (tReady (tFire (tEntry 4 1 15 0 0) [tTok 2047 true] [] []) 4 1 [0] && tReady (tFire (tEntry 4 1 15 0 0) [tTok 2048 true] [] []) 4 1 [0]
      && tReady (tAll 4 1 15 0 0) 4 1 [0] && tReady (tAll 4 1 15 0 0) 4 1 [1, 2]
      && tReady (tFire (tEntry 4 1 15 0 0) [] [tTok 2048 true] [tTok 1 true]) 4 1 [1, 2]
      && tReady (tAll 4 2 15 0 0) 4 2 [0, 1] && tReady (tFire (tEntry 4 2 15 0 0) [tTok 2048 true] [tTok 1 true] []) 4 2 [0, 1]
      && tReady (tAll 4 3 15 0 0) 4 3 [0] && tReady (tAll 4 4 2 31 0) 4 4 [2] && tReady (tAll 4 4 2 0 0) 4 4 [1, 2]) = true ∧
    memCapacity 15 = 2048 ∧ shortOf 2 = some .e8 ∧
    (let w := { tTok 1 true with tag := 4 };
      tForeign (tFire (tEntry 4 1 15 0 0) [w] [] []) 4 1 [0] = true ∧ tForeign (tFire (tEntry 4 1 15 0 0) [] [w] [w]) 4 1 [1, 2] = true ∧
      tForeign (tFire (tEntry 4 2 15 0 0) [w] [w] []) 4 2 [0, 1] = true ∧ tForeign (tFire (tEntry 4 3 15 0 0) [w] [] []) 4 3 [0] = true ∧
      tForeign (tFire (tEntry 4 4 2 31 0) [] [] [w]) 4 4 [2] = true ∧ tForeign (tFire (tEntry 4 4 2 0 0) [] [w] [w]) 4 4 [1, 2] = true) := by
  decide +kernel

/-- A load by the tokens of another context is not performed, and is that context's fault (R24; whose: log 45). -/
theorem test_foreign : tNext (exec (.ldstRead 64) (setCtxState (tFire (tEntry 4 1 15 0 0) [{ tTok 1 true with tag := 4 }] [] []) 4 .opened))
    (fun t => ctxState t 4 == .recovering && ctxState t 3 == .opened && tOut t 0 == []) = true := by decide +kernel

/-- A stored word is read back, an address past the capacity reads zero with P 0 in word mode (R361, R365). -/
theorem test_ldst : tNext (exec (.ldstWrite 64) (tFire (tEntry 4 1 15 0 0) [tTok 2047 true] [tTok 2047 true] [tTok 0xABCDEF
      true])) (fun t => tNext (exec (.ldstRead 64) t) fun u => tOut u 0 == [(0xABCDEF, true)] && tOut u 1 == [(2047, true)]) = true ∧
    tNext (exec (.ldstRead 64) (tFire (tEntry 4 1 15 0 0) [tTok 2048 true] [] [])) (fun t =>
      tOut t 0 == [(0, false)] && reg t (cb 3 7) 0x22 0 == 1) = true := by decide +kernel

/-- RMW emits the new value; STREAM loads at SEL + A; a block of one 1.0 ended by its run is stored whole (R363). -/
theorem test_mem : tNext (exec (.rmw 64) (tFire (tEntry 4 2 15 0 0) [tTok 5 true] [tTok 7 true] [])) (fun t => tOut t 0 == [(7, true)]) = true ∧
    tNext (exec (.stream 64) (tFire (tEntry 4 3 15 0 3) [tTok 5 true] [] [])) (fun t => tOut t 0 == [(0, true)]) = true ∧
    tNext (exec (.stb 64) (tFire (tEntry 4 4 2 0 0) [] [tTok 495 true] [tTok 0x3F800000 true])) (fun t => tOut t 1 == [(495, true)]) = true ∧
    tNext (exec (.stb 64) (tFire (tEntry 4 4 2 0 0) [] [tTok 496 true] [tTok 0x3F800000 true])) (fun t => tOut t 1 == [(496, false)]) = true := by
  decide +kernel

/-- Context 3 with a message that its FIN unit has not served, that its COUT decides, and a token that its FLI holds. -/
def tEdge (op sel : Nat) (a b c : List Token) (credits : Nat) : State :=
  let s := tFire (tEntry 5 op 0 0 sel) a b c
  let x := ctxAt s 3
  put (setCtx s 3 { x with run := { x.run with fins := tabSet [] [] 64 [8], open_ := tabSet [] [] 0 [8], fli := tabSet [] [] 64 [tTok 6 true],
                                               credits := tabSet 0 [] 64 credits } }) (cb 3 0x0B) 2 4

theorem witness_EdgeUnitsMeetTheOtherUnits :
    (tReady (tEdge 1 0x110 [] [] [] 0) 5 1 [] && tReady (tAll 5 1 0 0 0) 5 1 [] && tReady (tAll 5 2 0 0 0) 5 2 [0, 1, 2]
      && tReady (tEdge 3 0 [tTok 1 true] [] [] 1) 5 3 [0] && tReady (tEdge 3 0 [tTok 1 true] [] [] 2) 5 3 [0]
      && tReady (tEdge 4 0 [] [] [] 0) 5 4 [] && tReady (tEdge 5 0 [tTok 1 true] [tTok 0 true] [] 0) 5 5 [0, 1]
      && tReady (tEdge 5 3 [tTok 1 true] [tTok 1 true] [] 0) 5 5 [0, 1] && tReady (tEdge 5 4 [tTok 1 true] [tTok 0 true] [] 0) 5 5 [0, 1]
      && tReady (tEdge 6 3 [tTok 1 true] [tTok 1 true] [] 0) 5 6 [0, 1]) = true ∧
    (match unitIn (tEdge 3 0 [] [] [] 2) 64 5 3 with
      | some u => decide ((spreadAt u.cfg u.site).map (·.cred) = some 2 ∧ tabGet 0 u.run.credits u.site = 2) | none => false) = true ∧
    (ownsCounter (tEdge 5 0 [] [] [] 0) 3 3 = true ∧ ownsCounter (tEdge 5 0 [] [] [] 0) 3 4 = false ∧
      ownsCounter (tEdge 5 3 [] [] [] 0) (tagCtx (tTok 1 true).tag) 3 = true) ∧
    (let w := { tTok 1 true with tag := 4 };
      tForeign (tEdge 2 0 [w] [w] [w] 0) 5 2 [0, 1, 2] = true ∧ tReady (tEdge 5 3 [w] [w] [] 0) 5 5 [0, 1] = true ∧
      ownsCounter (tEdge 5 3 [w] [w] [] 0) (tagCtx w.tag) 3 = false) ∧
    (tabGet [] (ctxAt (tEdge 1 0x110 [] [] [] 0) 3).run.fins 64 = [8] ∧ tabGet [] (ctxAt (tAll 5 1 0 0 0) 3).run.fins 64 = [] ∧
      (msgAt (tEdge 1 0x110 [] [] [] 0) 8).isSome = true ∧ tabGet [] (ctxAt (tEdge 4 0 [] [] [] 0) 3).run.fli 64 = [tTok 6 true]) ∧
    ((tTok 1 true).data.setWidth 16 : BitVec 16) ≠ 0xFFFF ∧ ((tTok 0xFFFF true).data.setWidth 16 : BitVec 16) = 0xFFFF := by
  decide +kernel

/-- FIN 0x110 emits the instrument index; an FLO without credit waits; a KWAIT below its value parks; KINC asks for its
increment and passes A (R368, R398, R469, R466). -/
theorem test_edge : tNext (exec (.fin 64) (tEdge 1 0x110 [] [] [] 0)) (fun t => tOut t 0 == [(2, true)]) = true ∧
    tNext (exec (.flo 64) (tEdge 3 0 [tTok 1 true] [] [] 2)) (fun t => (queueAt (ctxAt t 3).run 64 0).length == 1) = true ∧
    tNext (exec (.kwait 64) (tEdge 5 3 [tTok 9 true] [tTok 1 true] [] 0)) (fun t => (ctxAt t 3).run.parked == [(64, (3, 1))]) = true ∧
    tNext (exec (.kwait 64) (tEdge 5 3 [tTok 9 true] [tTok 0 true] [] 0)) (fun t => tOut t 0 == [(9, true)]) = true ∧
    tNext (exec (.kinc 64) (tEdge 6 3 [tTok 9 true] [tTok 2 true] [] 0)) (fun t =>
      tOut t 0 == [(9, true)] && t.ctr.requests.map (·.amount) == [2]) = true ∧
    tNext (exec (.fli 64) (tEdge 4 0 [] [] [] 0)) (fun t => tOut t 0 == [(6, true)]) = true := by decide +kernel

/-- A COUT choice past the last template is no reply and counts (R370). -/
theorem test_cout : tNext (exec (.cout 64) (tEdge 2 0 [tTok 0 true] [tTok 0 true] [tTok 0 true] 0)) (fun t =>
    ((msgAt t 8).bind (·.record)).map (·.choice) == some 0xFFFF && reg t (cb 3 7) 0x25 0 == 1 && reg t (cb 3 7) 0x24 0 == 1) = true := by
  decide +kernel

/-! ### Witnesses: the Hearth's configurations (12) -/

/-- The configuration of `tConfigBody`. -/
def tConfig : HConfig :=
  { progs := List.replicate 8 { valid := false, bound := false, cout := 0 }, units := [], unused := [], circuits := [], spreads := [], mems := [], data := [],
    figures := [] }

/-- Context 3 with its configuration in slot 0 in a state, a swap, and slot 0 selected. -/
def tStored (st : HState) (w : Option Swap) : State :=
  tKeyed (setHslot (tCtx .opened { tOpal with run := { HRun.reset with swap := w } }) 0
    (some { state := st, owner := 3, cfg := some tConfig, fromImage := false }))

/-- A drain swap to slot 0 in a phase. -/
def tSwap (switching : Bool) : Swap := { dest := some 0, drain := true, switching := switching, timedOut := false }

theorem witness_ConfigurationsLoadAndSwap :
    (accepts (tKeyed (tCtx .opened tOpal)) .tap (cb 3 7) 4 tBoxConfig ∧ stagingFree (tKeyed (tCtx .opened tOpal)) = true ∧
      isLoaded (tKeyed (tCtx .opened tOpal)) 3 = true ∧ hslot (tKeyed (tCtx .opened tOpal)) 0 = none ∧
      tOk (fragmentBody (tKeyed (tCtx .opened tOpal)) 4 3 tBoxConfig) (· == tConfigBody) = true ∧ readConfig tConfigBody = some (some tConfig) ∧
      configOk (tKeyed (tCtx .opened tOpal)) false (0, 0) tConfig [] = true ∧ epochShared (tKeyed (tCtx .opened tOpal)) 3 tConfig = false ∧
      (match proveConfig 8 0 tConfig with
        | none => false
        | some g => !hearthAboveLimit (tKeyed (tCtx .opened tOpal)) 3 tImage g && configFits (tKeyed (tCtx .opened tOpal)) g) = true) ∧
    (accepts (tStored .stored none) .tap (cb 3 7) 4 tBoxConfig ∧ (hslot (tStored .stored none) 0).isSome = true) ∧
    (accepts (tStored .stored none) .tap (cb 3 7) 5 [1] ∧ accepts (tStored .stored none) .tap (cb 3 7) 5 [2] ∧
      accepts (tStored .stored none) .tap (cb 3 7) 5 [3] ∧ storedOwn (tStored .stored none) 3 0 = true ∧
      swapAllowed (tStored .stored none) 3 0 = true ∧ storedOwn (tStored .active none) 3 0 = false ∧
      swapAllowed (tStored .active none) 3 0 = false) ∧
    (swapOf (tStored .stored (some (tSwap false))) 3 = some (tSwap false) ∧ swapOf (tStored .stored (some (tSwap true))) 3 = some (tSwap true) ∧
      isLoaded (tStored .stored (some (tSwap true))) 3 = true ∧ hslot (tStored .stored (some (tSwap true))) 0 ≠ none ∧
      ({ tSwap true with dest := none } : Swap).dest = none ∧ (firingConfig (tStored .active (some (tSwap false))) 3).isSome = true) ∧
    (isLoaded (setCtxState (tStored .stored none) 3 .recovering) 3 = false ∧ accepts (setCtxState (tStored .stored none) 3 .recovering) .tap (cb 3 7) 5 [1] ∧
      accepts (setCtxState (tStored .stored none) 3 .recovering) .tap (cb 3 7) 4 tBoxConfig) ∧
    swapOf (tStored .stored none) 3 = none := by
  unfold accepts; decide +kernel

/-- A fragment makes slot 0 Stored (R383, R384), and a cut swap with its switch makes it Active, status 3 (R385, R387, R401). -/
theorem test_configuration : tNext (exec (.configurationLoad .tap 3 tBoxConfig []) (tKeyed (tCtx .opened tOpal)))
      (fun t => (hslot t 0).map (·.state) == some .stored) = true ∧
    tNext (exec (.cutSwap .tap 3) (tStored .stored none)) (fun t => tNext (exec (.swapSwitchDone 3) t) fun u =>
      (hslot u 0).map (·.state) == some .active && val u (cb 3 7) 6 == 3) = true := by decide +kernel

/-- Context 3 with a REP at site 64 that holds a trigger and writes to an IADD at site 65, which lacks its B and holds `n`
tokens of A. -/
def tBlocked (n quota : Nat) : State :=
  let e := tEntry 2 13 0 0 0
  let s := tFire e [tTok 1 true] [] []
  let w : Circuit := { src := 64, out := 0, dst := 65, inp := 0, slot := 0, width := 0, nhop := 0, qx := 0, route := 0 }
  let g : HConfig := { tConfig with units := [(64, e), (65, tEntry 2 9 0 0 0)], circuits := [w] }
  let x := ctxAt s 3
  let s := setCtx s 3 { x with run := { x.run with queues := tabSet [] x.run.queues (qkey 65 0) (List.replicate n (tTok 2 true)) } }
  put (setHslot s 0 (some { state := .active, owner := 3, cfg := some g, fromImage := true })) (cb 3 7) 0xB quota

theorem witness_DeadlocksSpillsSamplesAndSites :
    (match configIn (tBlocked 8 64) 3 .active with
      | none => false
      | some (_, g) => isLoaded (tBlocked 8 64) 3 && !externalWait (tBlocked 8 64) 3 g
          && decide (tokenCount (ctxAt (tBlocked 8 64) 3).run ≠ 0) && !boundQueueHeld (ctxAt (tBlocked 8 64) 3).run g
          && blockingQueues (ctxAt (tBlocked 8 64) 3).run 64 g == [(65, 0)]
          && decide (spillCount (spillQueue (ctxAt (tBlocked 8 64) 3).run (65, 0)) = 7)) = true ∧
    (match configIn (tFire (tEntry 2 13 0 0 0) [] [] []) 3 .active with
      | none => false | some _ => decide (tokenCount (ctxAt (tFire (tEntry 2 13 0 0 0) [] [] []) 3).run = 0)) = true ∧
    queueAt (ctxAt (tBlocked 8 64) 3).run 65 0 = tTok 2 true :: List.replicate 7 (tTok 2 true) ∧
    (val tRun 0x2800 2 = 0 ∧ val (put tRun 0x2800 2 1) 0x2800 2 ≠ 0) ∧
    (accepts tRun .tap (cb 3 7) 0x12 [1] ∧ heard tRun .tap = true ∧ served tRun = true ∧ accessAbort tRun .tap (cb 3 7) 0x12 = none ∧
      otherOpen tRun .tap (cb 3 7) 0x12 = false) ∧
    (siteOk 3071 = true ∧ 3071 ∉ tRun.grid.retired ∧ heldConfigs tRun = [] ∧ spareColumn tRun (siteGroup 3071) = none) ∧
    (let s := { tRun with grid := { tRun.grid with retired := [3071] } };
      3071 ∈ s.grid.retired ∧ columnUnusable s (siteCol 3071) = false ∧ columnUnusable (put s 0x2800 9 (2 ^ 63)) (siteCol 3071) = true ∧
      spareColumn (takeSpare s (siteGroup 3071) 0) (siteGroup 3071) ≠ none) ∧
    (match configIn (tBlocked 7 64) 3 .active with
      | none => false
      | some (_, g) => blockingQueues (ctxAt (tBlocked 7 64) 3).run 64 g == [] && decide (tokenCount (ctxAt (tBlocked 7 64) 3).run ≠ 0)) = true ∧
    (match configIn (tFire (tEntry 5 1 0 0 0) [tTok 1 true] [] []) 3 .active with
      | none => false
      | some (_, g) => boundQueueHeld (ctxAt (tFire (tEntry 5 1 0 0 0) [tTok 1 true] [] []) 3).run
          { g with progs := [{ valid := true, bound := true, cout := 64 }] }) = true ∧
    (let s := tBlocked 8 64; let x := ctxAt s 3;
      match configIn (tEdge 5 5 [tTok 1 true] [tTok 1 true] [] 0) 3 .active with
      | none => false
      | some (_, g) => externalWait (tEdge 5 5 [tTok 1 true] [tTok 1 true] [] 0) 3 g && isLoaded s 3 && x.run.bins == []) = true ∧
    (heard tRun .tap = true ∧ (2 : Byte) ≠ 1) := by
  unfold accepts; decide +kernel

/-- A blocking full queue spills all but its head (R391): one event; past the quota it is a hang, cause 0x0204. -/
theorem test_deadlock : tNext (exec (.deadlockDetect 3) (tBlocked 8 7)) (fun t =>
      reg t (cb 3 7) 0xC 0 == 1 && spillCount (ctxAt t 3).run == 7 && ctxState t 3 == .opened) = true ∧
    tNext (exec (.deadlockDetect 3) (tBlocked 8 6)) (fun t => ctxState t 3 == .recovering && val t (cb 3 0) 0x0A == 0x0204) = true := by
  decide +kernel

/-- A second failure of a site number whose column moved onto the spare makes the column unusable (R396). -/
theorem test_site_again : tNext (exec (.siteRetire 64) tRun) (fun t => tNext (exec (.siteRetire 64) t) fun u =>
    columnUnusable u (siteCol 64)) = true := by decide +kernel

/-- The first site lost in a group takes its spare column (R394). -/
theorem test_site : tNext (exec (.siteRetire 64) tRun) (fun t => t.grid.retired == [64] && val t 0x2800 9 == 0 && val t 0x2800 0xA == 1) = true := by
  decide +kernel

/-! ### Witnesses: the Chimney (13) -/

/-- A record of choice 0 whose score 0 is 5.0. -/
def tRecord (choice : BitVec 16) : Record := { choice := choice, rule := 0, scores := [0x40A00000], flags := 0 }

/-- Message 8 of context 3 with a record at the intake, the template's session 7 Open, and the check limits passed. -/
def tIntake (t : Template) (m : Msg) : State :=
  let x := { tOpal with image := tOpal.image.map fun i => { i with chim := { templates := [t], sessmask := 128, rent := 4, raw := [] } } }
  let s := tWork x m
  let s := put (put (put (put (put s 0x2917 2 1) 0x2917 9 noBucket) (cb 3 9) 2 10) (cb 3 9) 5 0) (cb 3 9) 3 1000
  let s := put (setTokens s 3 2) (cb 3 9) 6 4
  { s with chim := { s.chim with intake := [(3, [8])] } }

/-- The message with its record. -/
def tReply (r : Record) : Msg := { tMsg with record := some r, deadline := some (ns 50), tdp := some 0 }

def tWhich (s : State) : Nat := match nextRecord s 3 with | none => 0 | some (m, _, _) => m

/-- The reply of that record in state `s`. -/
def tComposed (s : State) (t : Template) : Reply := newReply s 8 (tReply (tRecord 0)) (tRecord 0) t (t.body.take t.len) 0 0

/-- Context 3 Open with counters 8 to 15, counter 8 holding `v`, and an increment asked for. -/
def tCount (v : BitVec 64) (r : IncReq) : State :=
  let s := setCounter (put (put (tCtx .opened tOpal) (cb 3 0x0B) 1 8) (cb 3 0x0B) 2 8) 8 v
  { s with ctr := { s.ctr with requests := [r] } }

def tInc (k : Nat) (n : BitVec 64) : IncReq := { counter := k, amount := n, tag := 3 }

theorem witness_RecordsBecomeCheckedReplies :
    (let s := tIntake tTemplate (tReply (tRecord 0));
      tWhich s = 8 ∧ tagCurrent s 3 = true ∧ tMsg.tag = 3 ∧ tWhich tRun = 0 ∧ domIsOn s 32 = true ∧
      (tReply (tRecord 0)).delivered = false ∧ templateAt s 3 0 = some tTemplate ∧ templateAt s 3 1 = none ∧
      replyVerdict s (tComposed s tTemplate) = none ∧ val s 0x2917 2 = 1 ∧ val (put s 0x2917 2 2) 0x2917 2 = 2 ∧
      (composeBody (tReply (tRecord 0)) (tRecord 0) tTemplate.slots tTemplate.body).isSome = true ∧
      quantityOf s (tReply (tRecord 0)) (tRecord 0) tTemplate = some 5 ∧ priceOf s (tReply (tRecord 0)) (tRecord 0) tTemplate = some (some 5) ∧
      riskCheck s (tReply (tRecord 0)) tTemplate 5 (some 1) = 0 ∧ riskCheck s (tReply (tRecord 0)) tTemplate 11 (some 1) = 4 ∧
      testedBuckets s 3 tTemplate = [3] ∧ tokensOf s 3 = 2 ∧ domIsOn State.reset 32 = false ∧
      ownsCounter (tCount 0 (tInc 8 1)) 3 8 = true ∧ ownsCounter (tCount 0 (tInc 8 1)) 3 16 = false ∧ tTemplate.kwait = 0xFFFF ∧
      ({ tTemplate with kwait := 8 } : Template).kwait ≠ 0xFFFF ∧ tokensOf s 3 < bucketDepth s 3) ∧
    tWhich (tIntake tTemplate { tReply (tRecord 0) with tag := 67 }) = 8 ∧ tagCurrent (tIntake tTemplate tMsg) 67 = false ∧
    tWhich (tIntake tTemplate { tReply (tRecord 0) with delivered := true }) = 8 ∧
    tWhich (tIntake tTemplate (tReply (tRecord 0xFFFF))) = 8 ∧ tWhich (tIntake tTemplate (tReply (tRecord 1))) = 8 ∧
    templateAt (tIntake { tTemplate with valid := false } tMsg) 3 0 = some { tTemplate with valid := false } ∧
    (let s := setFrame (tIntake tTemplate (tReply (tRecord 0))) 5 { tFrame [] with eff := some false };
      replyVerdict s (tComposed s tTemplate) = some false) ∧
    (let r := { tRecord 0 with scores := [0x7F800000] };
      composeBody (tReply r) r tTemplate.slots tTemplate.body = none) := by decide +kernel

/-- Each check fails on its own, and the buckets rise to their depth. -/
theorem witness_RiskChecks :
    (let s := tIntake tTemplate (tReply (tRecord 0));
      let x := tReply (tRecord 0);
      val (put s 0x2900 1 1) 0x2900 1 = 1 ∧ riskCheck (put s 0x2900 1 1) x tTemplate 5 (some 1) = 1 ∧
      riskCheck (put s (cb 3 9) 1 1) x tTemplate 5 (some 1) = 2 ∧ riskCheck (put s 0x2917 8 1) x tTemplate 5 (some 1) = 3 ∧
      riskCheck s x tTemplate 5 (some 201) = 5 ∧ riskCheck s x tTemplate 5 (some 200) = 0 ∧ riskCheck s x tTemplate 5 none = 5 ∧
      riskCheck (put s (cb 3 9) 5 0x100) x tTemplate 5 (some 1) = 6 ∧ riskCheck (setTokens s 3 0) x tTemplate 5 (some 1) = 7 ∧
      bucketDepth s 3 = 4 ∧ bucketDepth s 71 = noBucket ∧
      tNext (exec (.bucketRefill 3 none) s) (fun t => tokensOf t 3 == 3) = true) := by decide +kernel

/-- Reply 1 of context 3 for port 2 with the template, of message 8. -/
def tOne : Reply := { tComposed (tIntake tTemplate (tReply (tRecord 0))) tTemplate with hold := 0, state := .queued }

/-- A state with that reply in port 2's queue, wait line or on its wire. -/
def tSend (t : Template) (x : Reply) (queue line sending : List Nat) : State :=
  let s := setReply (tIntake t (tReply (tRecord 0))) 1 x
  let s := setPort s 2 { portAt s 2 with queue := queue, sending := sending }
  let s := setLine s 3 2 line
  { s with chim := { s.chim with nextReply := 2 } }

theorem witness_RepliesAreReleasedAndEnd :
    (let s := tSend tTemplate { tOne with state := .waiting } [] [1] [];
      replyAt s 1 = some { tOne with state := .waiting } ∧ (lineAt s 3 2).head? = some 1 ∧ tOne.parked = false ∧ domIsOn s 32 = true ∧
      expiredWait s 3 2 = none) ∧
    (let x := { tOne with state := .waiting, parked := true, deadline := some 0 };
      let s := tSend tTemplate x [] [1] [];
      (lineAt s 3 2).head? = some 1 ∧ expiredWait s 3 2 = some (1, x) ∧ (lineAt tRun 3 2).head? = none ∧ domIsOn State.reset 32 = false) ∧
    (let s := tSend tTemplate tOne [1] [] [];
      (portAt s 2).queue.head? = some 1 ∧ templateAt s tOne.ctx tOne.template = some tTemplate ∧ releaseReady s 2 tOne = true ∧
      releaseReady s 2 { tOne with hold := ns 1000 } = false ∧ releaseLate s 2 tOne = false ∧
      releaseLate s 2 { tOne with deadline := some 0 } = true ∧ lateAction (put s (cb 3 2) 0x24 1) 3 = 1 ∧ lateAction (put s (cb 3 2) 0x24 0) 3 = 0 ∧
      val s 0x2917 2 = 1 ∧ linkUp (portAt s 2) = true ∧ ringFull s 3 = false ∧ ringFull (put s (cb 3 8) 0x0D 1) 3 = true ∧
      lateDue s 2 = none ∧ lateReply s 2 = none ∧ lateMessage s 2 = none ∧ releaseOpen s 2 tOne = true ∧ txYields s 2 = true ∧
      expressWaits s 2 = true ∧ txYields (setPort s 2 { portAt s 2 with tx := some tNow }) 2 = false ∧ domIsOn s 32 = true ∧
      tTemplate.l4 ≠ 2 ∧ tTemplate.sess = true) ∧
    (let x := { tOne with deadline := some (ns 1) };
      let s := put (tSend tTemplate x [1] [] []) (cb 3 2) 0x24 1;
      lateDue s 2 = none ∧ lateReply s 2 = some (1, x) ∧ admNow s < ns 1 ∧ releaseLate s 2 x = true ∧
      (({ tOne with deadline := some 0 } : Reply).deadline = some 0 ∧ 0 ≤ admNow s)) ∧
    (let x := { tOne with deadline := some 0, state := .late };
      let s := tSend tTemplate x [] [] [];
      lateDue s 2 = some (1, x)) ∧
    (let s := tSend tTemplate tOne [] [] [];
      let m := { tReply (tRecord 0) with record := none, deadline := some 0 };
      lateDue (put (setMsg s 8 m) (cb 3 2) 0x24 1) 2 = none ∧ lateReply (put (setMsg s 8 m) (cb 3 2) 0x24 1) 2 = none ∧ lateMessage (put (setMsg s 8 m) (cb 3 2) 0x24 1) 2 = some (8, m)) ∧
    (let x := { tOne with state := .sending };
      let s := tSend tTemplate x [] [] [1];
      (portAt s 2).sending.head? = some 1 ∧ x.commit = none ∧ x.torn = false ∧ x.verified = false ∧
      replyVerdict (setFrame s 5 { tFrame [] with eff := some true }) x = some true ∧
      replyVerdict (setFrame s 5 { tFrame [] with eff := some false }) x = some false ∧ replyVerdict s x = none ∧
      x.port < 8 ∧ x.ctx < 64) := by decide +kernel

/-- A reply sent with a good FCS counts as a frame of 64 bytes, and its accepted record takes a token (R126, R414, R428). -/
theorem test_reply : tNext (exec (.recordIntake 3) (tIntake tTemplate (tReply (tRecord 0)))) (fun t =>
      tokensOf t 3 == 1 && (portAt t 2).queue.length == 1) = true ∧
    tNext (exec (.replyEnd 1) (tSend tTemplate { tOne with state := .sending, commit := some true } [] [] [1])) (fun t =>
      reg t 0x2112 0x0D 0 == 1 && reg t 0x2112 0x0E 0 == 64 && reg t (cb 3 8) 5 0 == 1) = true := by decide +kernel

/-- A late reply of action 1 is no no-send before its deadline (R67), and a corrected template error only counts (R429). -/
theorem test_late : tNext (exec (.replyRelease 2) (put (tSend tTemplate { tOne with deadline := some (ns 1) } [1] [] []) (cb 3 2) 0x24 1))
      (fun t => (replyAt t 1).map (·.state) == some .late && reg t (cb 3 2) 0x15 0 == 0) = true ∧
    tNext (exec (.templateError 1 .corrected) (tSend tTemplate tOne [1] [] [])) (fun t =>
      reg t 0x2900 3 0 == 1 && (replyAt t 1).map (·.state) == some .queued) = true := by decide +kernel

/-- The score 5.0 rounds to 5 and stands big-endian in its slot (R407, R408). -/
theorem test_insertion : (composeBody (tReply (tRecord 0)) (tRecord 0) tTemplate.slots (List.replicate 60 0)).map (fun b => slice b 50 4)
    = some [0, 0, 0, 5] := by decide +kernel

/-! ### Witnesses: kills, sessions and sync counters (13, 15) -/

theorem witness_KillsAndSessionsAreCommanded :
    (heard tRun .tap = true ∧ served tRun = true ∧ accessAbort tRun .tap 0x2900 1 = none ∧ accessAbort tRun .tap (cb 3 9) 1 = none ∧
      accessAbort tRun .tap 0x2917 8 = none ∧ accessAbort tRun (.mesh 9 9) 0x2917 8 = some abAccess ∧ heard tRun (.mesh 9 9) = true ∧
      writeAbort tRun .tap 0x2900 1 [2] = some abRange ∧ heard { tRun with mgmt := { tRun.mgmt with nmt := .stopped } } (.can 5) = false ∧
      heard { tRun with sys := { tRun.sys with boot := .firmware } } .tap = true ∧
      served { tRun with sys := { tRun.sys with boot := .firmware } } = false) ∧
    (let s := put (tSend tTemplate tOne [1] [] []) 0x2900 1 1;
      replyAt s 1 = some tOne ∧ tOne.state = .queued ∧ templateAt s tOne.ctx tOne.template = some tTemplate ∧
      killCheck s tOne.ctx tTemplate = 1) ∧
    (accepts tRun .tap 0x2917 3 [1] ∧ accepts tRun .tap 0x2917 3 [2] ∧ accepts tRun .tap 0x2917 3 [3] ∧ val tRun 0x2917 2 = 0 ∧
      val (put tRun 0x2917 2 2) 0x2917 2 = 2 ∧ accepts (put tRun 0x2917 2 2) .tap 0x2917 3 [2] ∧ accepts (put tRun 0x2917 2 2) .tap 0x2917 3 [1]) ∧
    (let s := tIntake tTemplate tMsg;
      rentOf s 3 = 4 ∧ accepts s .tap (cb 3 8) 0x0D (toLe 2 3) ∧ accepts s .tap (cb 3 8) 0x0D (toLe 2 4)) := by unfold accepts; decide +kernel

/-- A session opens from Closed alone, and a kill suppresses a queued reply under check 1 (R417, R423). -/
theorem test_kill : tNext (exec (.sessionOpen .tap 7) tRun) (fun t => val t 0x2917 2 == 1) = true ∧
    tNext (exec (.sessionOpen .tap 7) (put tRun 0x2917 2 2)) (fun t => val t 0x2917 2 == 2) = true ∧
    tNext (exec (.globalKill .tap 1) (tSend tTemplate tOne [1] [] [])) (fun t =>
      (replyAt t 1).map (·.state) == some .ended && reg t (cb 3 9) 9 0 == 1 && (portAt t 2).queue == []) = true := by decide +kernel

theorem witness_CountersRiseAndSaturate :
    (let s := setSelected (tCount 0 (tInc 8 1)) .tap (cb 3 0x0B) 3 8;
      accepts s .tap (cb 3 0x0B) 5 (toLe 8 1) ∧ selected s .tap (cb 3 0x0B) 3 = 8 ∧ counterRange s 3 = (8, 8) ∧ ctxState s 3 = .opened ∧
      ctxState (setCtxState s 3 .loading) 3 = .loading ∧ accepts (setCtxState s 3 .loading) .tap (cb 3 0x0B) 5 (toLe 8 1) ∧
      accepts (tCount 0 (tInc 8 1)) .tap (cb 3 0x0B) 5 (toLe 8 1) ∧ selected (tCount 0 (tInc 8 1)) .tap (cb 3 0x0B) 3 = 0) ∧
    tRun.ctr.requests = [] ∧
    (let s := tCount 0 (tInc 8 1); ownsCounter { s with ctr := { s.ctr with requests := [] } } (tagCtx (tInc 8 1).tag) 8 = true) ∧
    (let s := tCount 0 (tInc 16 1); ownsCounter { s with ctr := { s.ctr with requests := [] } } (tagCtx (tInc 16 1).tag) 16 = false) ∧
    (let s := setSelected (tCount 5 (tInc 8 1)) .tap 0x2B00 1 8;
      selected s .tap 0x2B00 1 = 8 ∧ counterAt s 8 = 5 ∧ counterOwner s 8 = some 3 ∧
      accepts s .tap 0x2B00 2 (toLe 8 4) ∧ accepts s .tap 0x2B00 2 (toLe 8 6) ∧
      selected (tCount 5 (tInc 8 1)) .tap 0x2B00 1 = 0 ∧ counterOwner (tCount 5 (tInc 8 1)) 0 = none ∧
      accepts (tCount 5 (tInc 8 1)) .tap 0x2B00 2 (toLe 8 6)) := by unfold accepts; decide +kernel

/-- An increment past the top stays there (R465, R467). -/
theorem test_counter : tNext (exec .counterUpdate (tCount 5 (tInc 8 2))) (fun t => counterAt t 8 == 7) = true ∧
    tNext (exec .counterUpdate (tCount (2 ^ 64 - 2) (tInc 8 2))) (fun t =>
      counterAt t 8 == 2 ^ 64 - 1 && t.ctr.saturated == [8] && reg t 0x2B00 6 0 == 1) = true := by decide +kernel

/-! ### Witnesses: the Flue (14) -/

/-- A packet with its CRC, SEQ 0. -/
def tPkt (type : Nat) (status : Nat) (tag : Option (BitVec 14)) (rid : BitVec 16) (arg : Nat) (payload : Bytes) : Bytes :=
  pktSeal (pktBytes { pkt type 0 0 tag arg payload with status := status, sx := 4, sy := 5, rid := rid }) 0 rid

/-- Context 3 with a resend ring at 0x200000, channel 5 Up with request 0 outstanding, and a spread entry with circuit 0 and
epoch 7 at site 64, on that channel; `cred` is 0 for an FLI. -/
def tMesh (cred : Nat) (why : Purpose) : State :=
  let s := tFire (tEntry 7 1 0 0 0) [] [] []
  let x := { tOpal with image := tOpal.image.map fun (i : Image) => { i with chim := { templates := [], sessmask := 0, rent := 4, raw := [] } } }
  let s := setCtx s 3 { x with run := (ctxAt s 3).run, runs := [(0x200000, 1280)] }
  let sp : Spread := { site := 64, circ := 0, program := 0, epoch := 7, x := 1, y := 2, hop := 3, rcirc := 4, cred := cred, rtime := 0, rsrc := 0, tpm := 1 }
  let g : HConfig := { progs := [], units := [], unused := [], circuits := [], spreads := [sp], mems := [], data := [], figures := [] }
  let s := setHslot s 0 (some { state := .active, owner := 3, cfg := some g, fromImage := true })
  setChan s 5 { Chan.reset with state := .up, outstanding := [(0, some { type := 1, tag := none, arg := 0, purpose := why, dx := 0, dy := 0, len := 0, sentAt := 0 })] }

/-- Whether a packet stands at channel 5 and passes the edge. -/
def tEdgeOk (s : State) (type : Nat) (bs : Bytes) : Bool :=
  (chanAt s 5).state = .up && byteAt bs 0 = BitVec.ofNat 8 type && pktGood bs && pktSeq bs = (chanAt s 5).rxSeq && pktReservedOk bs
    && (!(pktOf bs).ctxv || tagCurrent s (pktOf bs).tag)

theorem tEdgeOk_sound {s : State} {type : Nat} {bs : Bytes} (h : tEdgeOk s type bs = true) : edgeAccepts s 5 type bs := by
  simp only [tEdgeOk, Bool.and_eq_true, decide_eq_true_eq, Bool.or_eq_true, Bool.not_eq_true'] at h
  obtain ⟨⟨⟨⟨⟨h1, h2⟩, h3⟩, h4⟩, h5⟩, h6⟩ := h
  exact ⟨⟨h1, h2, h3, h4⟩, h5, fun hc => by simpa [hc] using h6⟩

def tMesh1 : State := tMesh 0 .staging

theorem witness_PacketsHaveTheirEffects :
    (([0x01, 0x02, 0x03, 0x04, 0x81, 0x82, 0x84, 0x11, 0x20, 0x21, 0x30].all fun k =>
      tEdgeOk tMesh1 k (tPkt k 0 none 0 0 []) && !pktReservedOk (tPkt k 8 none 0 0 []) && pktGood (tPkt k 8 none 0 0 [])
        && pktGood (tPkt k 0 (some 67) 0 0 []))) = true ∧
    (pktOf (tPkt 1 0 (some 67) 0 0 [])).ctxv = true ∧ tagCurrent tMesh1 (pktOf (tPkt 1 0 (some 67) 0 0 [])).tag = false ∧
    pktGood (List.replicate 32 0) = false ∧ pktSeq (pktSeal (pktBytes (pkt 1 0 0 none 0 [])) 3 0) = 3 ∧
    (chanAt (setChan tMesh1 5 Chan.reset) 5).state ≠ .up := by decide +kernel

/-- Packets with effects of their own. -/
theorem witness_PacketEffects :
    (let b := tPkt 3 0 (some 3) 0 (0x200000 + 2 ^ 32 * 64) []; let a := (pktOf b).arg.toNat;
      tEdgeOk tMesh1 3 b = true ∧ (pktOf b).ctxv = true ∧
      (brdBytes (acceptPkt tMesh1 5 b) (tagCtx (pktOf b).tag) (a % 2 ^ 32) (bits a 47 32)).isSome = true ∧
      brdBytes (acceptPkt tMesh1 5 b) 3 0 64 = none) ∧
    (let b := fun st => tPkt 0x81 st none 0 0 []; (([0, 1, 3].all fun st => tEdgeOk tMesh1 0x81 (b st) && (pktOf (b st)).status == st
        && (matchReq (chanAt (acceptPkt tMesh1 5 (b st)) 5) (pktOf (b st))).isSome)) = true) ∧
    matchReq (chanAt (acceptPkt tMesh1 5 (tPkt 0x81 0 none 1 0 [])) 5) (pktOf (tPkt 0x81 0 none 1 0 [])) = none ∧
    (let s := tMesh 0 (.probeTo 4 5 100); let b := tPkt 0x84 0 none 0 0 [];
      tEdgeOk s 0x84 b = true ∧ (matchReq (chanAt (acceptPkt s 5 b) 5) (pktOf b)).map (fun r => r.2.purpose) = some (.probeTo 4 5 100)) ∧
    (let s := put (put tMesh1 0x2149 1 1) 0x2149 3 8; let b := tPkt 0x11 0 none 0 9 [];
      tEdgeOk s 0x11 b = true ∧ ringDir (acceptPkt s 5 b) 9 ≠ 0 ∧ tOk (match writeTail 9 (toLe 2 0) (acceptPkt s 5 b) with | .ok _ => .ok () | _ => .error ()) (fun _ : Unit => true) = true) ∧
    (let b := fun e => tPkt 0x20 0 (some 3) 0 (65536 + 256 * e) (List.replicate 16 1);
      tEdgeOk tMesh1 0x20 (b 7) = true ∧ tEdgeOk tMesh1 0x20 (b 6) = true ∧
      (circuitOn (acceptPkt tMesh1 5 (b 7)) 5 0 false).isSome = true ∧ (pktOf (b 7)).payload.length = 16 ∧
      (circuitOn (acceptPkt tMesh1 5 (b 7)) 5 1 false).isNone = true) ∧
    (let b := tPkt 0x21 0 none 0 (65536 + 256 * 7) [];
      tEdgeOk (tMesh 2 .staging) 0x21 b = true ∧ (circuitOn (acceptPkt (tMesh 2 .staging) 5 b) 5 0 true).isSome = true ∧
      (circuitOn (acceptPkt tMesh1 5 b) 5 0 true).isNone = true) ∧
    (tEdgeOk (put tMesh1 0x2A20 4 9) 0x30 (tPkt 0x30 0 none 0 9 []) = true ∧ tEdgeOk tMesh1 0x30 (tPkt 0x30 0 none 0 0 []) = true ∧
      tEdgeOk tMesh1 0x11 (tPkt 0x11 0 none 0 7 []) = true ∧ ringDir (acceptPkt tMesh1 5 (tPkt 0x11 0 none 0 7 [])) 9 = 0) ∧
    (let s := { tMesh1 with sys := { tMesh1.sys with cycles := 10 ^ 12 } }; let b := tPkt 0x81 0 none 0 0 [];
      tEdgeOk s 0x81 b = true ∧ (matchReq (chanAt (acceptPkt s 5 b) 5) (pktOf b)).map (fun r => decide (requestLifetime ≤ elapsed s - r.2.sentAt)) = some true ∧
      (matchReq (chanAt (acceptPkt tMesh1 5 b) 5) (pktOf b)).map (fun r => decide (elapsed tMesh1 - r.2.sentAt < requestLifetime)) = some true) ∧
    (let b := tPkt 0x20 0 (some 4) 0 (65536 + 256 * 7) (List.replicate 16 1); let c := tPkt 0x20 0 none 0 (65536 * 65 + 256 * 7) [];
      tEdgeOk tMesh1 0x20 b = true ∧ tagCtx (pktOf b).tag = 4 ∧ tEdgeOk tMesh1 0x20 c = true ∧ 64 < bits (pktOf c).arg.toNat 23 16 ∧
      64 < (List.replicate 64 (tTok 1 true)).length + 1) ∧
    (let b := tPkt 3 0 none 0 0 []; tEdgeOk tMesh1 3 b = true ∧ (pktOf b).ctxv = false) := by decide +kernel

/-- A control flit of a type for a channel that has received SEQ 0. -/
def tFlit (type : Byte) : Bytes := ctrlFlit { Chan.reset with rxSeq := 1 } type

/-- Channel 5 with a packet in its replay buffer, replayed `n` times. -/
def tReplay (n : Nat) : State := setChan tRun 5 { Chan.reset with state := .up, unacked := [(0, n, tPkt 1 0 none 0 0 [])] }

theorem witness_ChannelsTrainReplayAndRetire :
    (let s := setChan tRun 5 { Chan.reset with state := .training };
      (chanAt s 5).state = .training ∧ domIsOn s (chanDomain 5) = true ∧ (chanAt s 5).unacked = [] ∧ chanReqs (chanAt s 5) = [] ∧
      spreadCtxs s 5 = []) ∧
    (chanAt tRun 0).state = .up ∧ domIsOn State.reset (chanDomain 5) = false ∧ (chanAt (tReplay 0) 5).unacked ≠ [] ∧
    ((tFlit 1).length = 16 ∧ leAt (tFlit 1) 12 4 = crc32c ((tFlit 1).take 12) ∧ (byteAt (tFlit 1) 0).toNat = 1 ∧
      (byteAt (tFlit 2) 0).toNat = 2 ∧ leAt (tFlit 2) 12 4 = crc32c ((tFlit 2).take 12)) ∧
    ((tFlit 3).length = 16 ∧ (byteAt (tFlit 3) 0).toNat = 3 ∧ leAt (tFlit 3) 12 4 = crc32c ((tFlit 3).take 12) ∧
      (let s := setChan tRun 5 { Chan.reset with state := .down };
        (chanAt s 5).state = .down ∧ domIsOn s (chanDomain 5) = true ∧ (chanAt (noteFlue s (setChan s 5 { chanAt s 5 with state := .training })) 5).state = .training) ∧
      (chanAt (setChan tRun 5 { Chan.reset with state := .retired }) 5).state = .retired) ∧
    (tRun.flue.held = [] ∧ tRun.flue.unreachable = [] ∧ mantelList { tRun with flue := { tRun.flue with chans := [] } } = []) ∧
    (let s := setChan tRun 5 { Chan.reset with state := .up, nak := true };
      (chanAt s 5).nak = true ∧ pktSeq (tPkt 1 0 none 0 0 []) = 0 ∧ pktSeq (pktSeal (pktBytes (pkt 1 0 0 none 0 [])) 3 0) ≠ (chanAt s 5).rxSeq) ∧
    (let s := sendReq (markUnreachable tRun (4, 5)) 0 (pkt 0x04 4 5 none 0 []) (.probeTo 4 5 0);
      s.flue.unreachable = [(4, 5)] ∧ probing s (4, 5) = true) ∧
    ((chanAt (tReplay 8) 5).unacked.any fun v => decide (8 ≤ v.2.1)) = true ∧ ((chanAt (tReplay 0) 5).unacked.all fun v => decide (v.2.1 < 8)) = true ∧
    (pktGood (tPkt 1 0 none 0 0 []) = true ∧ pktSeq (tPkt 1 0 none 0 0 []) = (chanAt tMesh1 5).rxSeq ∧ (chanAt tMesh1 5).nak = false) ∧
    (tabGet none (chanAt tMesh1 5).outstanding 0).isSome = true ∧ (tabGet none (chanAt tRun 5).outstanding 0).isNone = true ∧
    (let s := markUnreachable tRun (4, 5); s.flue.unreachable = [(4, 5)] ∧ mantelList s = [0] ∧ probing s (4, 5) = false) := by decide +kernel

/-- The bytes 0x00 to 0x1F have CRC-32C 0x46DD794E, and "123456789" has 0xE3069283 (R437). -/
theorem test_crc32c : crc32c ((List.range 32).map (BitVec.ofNat 8)) = 0x46DD794E ∧
    crc32c [0x31, 0x32, 0x33, 0x34, 0x35, 0x36, 0x37, 0x38, 0x39] = 0xE3069283 := by decide +kernel

/-- A training flit takes a Down channel into Training, where its status timer sends training flits (R436, R437). -/
theorem test_retrain : tNext (exec (.linkControlFlit 5 (tFlit 3)) (setChan tRun 5 { Chan.reset with state := .down })) (fun t =>
    (chanAt t 5).state == .training && tNext (exec (.statusFlitTimer 5) t) (fun u =>
      u.sys.out == t.sys.out ++ [.flit 5 (ctrlFlit (chanAt t 5) 3)])) = true := by decide +kernel

/-- A read is refused with STATUS 2 and counted, and a probe comes back with its ARG (R440, R450). -/
theorem test_inbound : tNext (exec (.rd 5 (tPkt 1 0 none 0 0x55 [])) tMesh1) (fun t =>
      reg t 0x2A00 7 0 == 1 && ((chanAt t 5).unacked.map fun u => ((pktOf u.2.2).type, (pktOf u.2.2).status)) == [(0x81, 2)]) = true ∧
    tNext (exec (.probe 5 (tPkt 4 0 none 0 0x55 [])) tMesh1) (fun t =>
      ((chanAt t 5).unacked.map fun u => ((pktOf u.2.2).type, (pktOf u.2.2).arg)) == [(0x84, 0x55)]) = true := by decide +kernel

/-- A token of another context is discarded, and is that context's isolation fault (R24; whose: log 45). -/
theorem test_htok_foreign : tNext (exec (.htok 5 (tPkt 0x20 0 (some 4) 0 (65536 + 256 * 7) (List.replicate 16 0))) (setCtxState tMesh1 4 .opened))
    (fun t => ctxState t 4 == .recovering && ctxState t 3 == .opened && tabGet [] (ctxAt t 3).run.fli 64 == []) = true := by decide +kernel

/-- A token of an HTOK enters the buffer of its FLI, and an old epoch is dropped (R399, R453). -/
theorem test_htok : tNext (exec (.htok 5 (tPkt 0x20 0 (some 3) 0 (65536 + 256 * 7) (toLe 8 0x1234 ++ [1] ++ List.replicate 7 0))) tMesh1)
      (fun t => tabGet [] (ctxAt t 3).run.fli 64 == [{ tag := 3, p := true, data := 0x1234 }]) = true ∧
    tNext (exec (.htok 5 (tPkt 0x20 0 (some 3) 0 (65536 + 256 * 6) (List.replicate 16 0))) tMesh1)
      (fun t => tabGet [] (ctxAt t 3).run.fli 64 == [] && reg t 0x2800 0xB 0 == 1) = true := by decide +kernel

/-! ### Witnesses: power (02, 18) -/

/-- Domain `d` of the running block as `f` makes it. -/
def tDom (d : Nat) (f : Domain → Domain) : State := setDom tRun d (f (domAt tRun d))

/-- A domain that gauge 0 senses. -/
def tGauged : Nat := gaugeDomain 0

/-- Every gauge of that domain with 9,999 clear readings. -/
def tClear : Tab Nat := (domainGauges tGauged).map fun g => (g, 9999)

/-- The running block with a firmware image whose corner count is `n`. -/
def tCorner (n : Nat) : State := { tRun with sys := { tRun.sys with cornerCount := n } }

/-- That domain in live trip, its gauges with clear readings. -/
def tTripped (c : Tab Nat) : State :=
  let s := setDom (tCorner 500) tGauged { domAt tRun tGauged with clearLive := c }
  { s with power := { s.power with liveTrip := [tGauged] } }

theorem witness_GaugesSupplyAndTemperature :
    (let s := tDom tGauged fun x => { x with clearLive := tClear, clearBreach := tClear, tj := 900, windows := [700] };
      domIsOn State.reset tGauged = false ∧ domIsOn s tGauged = true ∧ gauged tGauged = true ∧ gauged 7 = false ∧
      val s 0x2380 2 * (2000 + val s 0x2380 3) < 2000 * 1400 ∧ ¬ val s 0x2380 2 * (2000 + val s 0x2380 3) < 2000 * 700 ∧
      4000 * 500 ≤ val s 0x2380 2 * (4000 + val s 0x2380 3) ∧
      clearsDone s tGauged (countClear (domAt s tGauged).clearLive 0) = true ∧ clearsDone s tGauged (countClear [] 0) = false ∧
      700 * 1000 = 1000 * (tCorner 700).sys.cornerCount ∧ 700 ≤ 980 ∧ (domAt s tGauged).tj ≤ 930 ∧
      (domAt s tGauged).windows = [700] ∧ (domAt s tGauged).vdd = 750 ∧ (domAt s tGauged).lowerWait ≤ 1 ∧ s.power.liveTrip = [] ∧
      val s 0x2380 2 * (8000 + val s 0x2380 3) < 8000 * 1000 ∧ 8000 * 300 < val s 0x2380 2 * (8000 - val s 0x2380 3) ∧
      8000 * 700 ≤ val s 0x2380 2 * (8000 + val s 0x2380 3) ∧ val s 0x2380 2 * (8000 - val s 0x2380 3) ≤ 8000 * 700) ∧
    (let s := tDom tGauged fun x => { x with vdd := 800, windows := [700] };
      tGauged ∈ ({ s with power := { s.power with liveTrip := [tGauged] } } : State).power.liveTrip ∧ (domAt s tGauged).vdd = 800 ∧
      (domAt s tGauged).ceiling = false ∧ (domAt (tDom tGauged fun x => { x with ceiling := true }) tGauged).ceiling = true) ∧
    State.reset.sys.boot = .held ∧ tRun.sys.boot ≠ .held ∧
    (let u := fun (s : State) (r : Int) => thermalWarning (setDom s 5 { domAt s 5 with tj := r }) 5;
      (domAt (u (tDom 5 fun x => { x with retired := true }) 500) 5).retired = true ∧
      (domAt (u tRun 500) 5).retired = false ∧ (domAt (u tRun 500) 5).thermal = false ∧
      domIsOn (u (tDom 5 fun x => { x with state := .cold }) 1050) 5 = false ∧
      (domAt (u (tDom 5 fun x => { x with state := .cold }) 1050) 5).hotReads < 100 ∧
      (domAt (u (tDom 5 fun x => { x with thermal := true }) 900) 5).thermal = true) ∧
    (({ tRun with sys := { tRun.sys with boot := .hot } } : State).sys.boot = .hot ∧
      (domAt (tDom 5 fun x => { x with warned := true }) 5).warned = true ∧ (domAt tRun 5).warned = false ∧
      10 * (val tRun 0x2D00 6 : Int) ≤ 1200 ∧ ¬ 10 * (val tRun 0x2D00 6 : Int) ≤ 0) ∧
    (0 ≤ 10 * val tRun 0x2D00 4 ∧ 10 * val tRun 0x2D00 4 < 10 ^ 9) := by decide +kernel

/-- A quiet domain has its supply lowered by 10 mV; a corner breach needs more than 1,000 (R71, R549). -/
theorem test_supply :
    tNext (exec (.supplyEvaluation tGauged) (tDom tGauged fun x => { x with windows := [300] })) (fun t => (domAt t tGauged).vdd == 740) = true ∧
    tNext (exec (.gaugeWindow 0 ⟨1000, 750⟩) (tCorner 1001)) (fun t => t.power.breach.contains tGauged) = true ∧
    tNext (exec (.gaugeWindow 0 ⟨1000, 600⟩) (tCorner 1000)) (fun t => t.power.breach == []) = true ∧
    tNext (exec (.gaugeWindow 0 ⟨1000, 599⟩) (tCorner 1000)) (fun t => t.power.breach.contains tGauged) = true := by decide +kernel

/-- One gauge alone clears no trip: each of the domain's gauges has to have read clear often enough (R71). -/
theorem test_clear :
    tNext (exec (.gaugeWindow 0 ⟨1000, 750⟩) (tTripped [])) (fun t => t.power.liveTrip == [tGauged]) = true ∧
    tNext (exec (.gaugeWindow 0 ⟨1000, 750⟩) (tTripped tClear)) (fun t => t.power.liveTrip == []) = true := by decide +kernel

/-- The shutdown comes with the first hot read a millisecond after the first of the row (R550). -/
theorem test_shutdown :
    tNext (exec (.thermalRead (List.replicate 6 1050)) (tDom 5 fun x => { x with hotReads := 99 })) (fun t => (domAt t 5).thermal) = false ∧
    tNext (exec (.thermalRead (List.replicate 6 1050)) (tDom 5 fun x => { x with hotReads := 100 })) (fun t => (domAt t 5).thermal) = true := by
  decide +kernel

/-- Context 3 in a phase of its teardown, domain 14 with an escalation at a step. -/
def tEsc (phase : Phase) (step : Nat) (busy : Bool) : State :=
  tCtx .recovering { tOpal with td := some { tTd phase with escalations := [{ domain := 14, engine := 1, step := step, busy := busy }] } }

theorem witness_DomainsChangeAndAreEscalated :
    (let s := fun (d : Nat) => setSelected tRun .tap 0x2D20 1 d;
      accepts (s 35) .tap 0x2D20 4 [1] ∧ selected (s 35) .tap 0x2D20 1 = 35 ∧ accepts (s 5) .tap 0x2D20 4 [1] ∧
      accepts (s 5) .tap 0x2D20 4 [2] ∧ accepts (s 5) .tap 0x2D20 4 [3] ∧ (domAt (s 5) 5).retired = false ∧ (domAt (s 5) 5).thermal = false ∧
      accepts (setDom (s 5) 5 { domAt tRun 5 with thermal := true }) .tap 0x2D20 4 [1] ∧ domInUse (s 5) 5 = false ∧ (domAt (s 5) 5).state = .on) ∧
    (domInUse tRun 35 = true ∨ domInUse tRun 35 = false) ∧
    ((domAt (tDom 5 fun x => { x with changing := some .on, state := .cold }) 5).changing = some .on ∧
      fromCold 5 .cold = true ∧ fromCold 20 .banked = false ∧ cycling tRun 5 = false ∧ (domAt tRun 32).policy = 0 ∧
      (domAt (tDom 5 fun x => { x with policy := 1 }) 5).policy ≠ 0 ∧ (domAt tRun 8).state = .on ∧ (domAt tRun 8).changing = none) ∧
    ((ctxAt tRun 3).td = none ∧ ((ctxAt (tEsc .purging 0 false) 3).td.map (·.phase)) = some .purging ∧
      ctxState (tEsc .purging 0 false) 3 ≠ .loading ∧ (domAt (tEsc .purging 0 false) 14).retired = false ∧ engineOk 1 = true ∧
      ((ctxAt (tEsc .reading 0 false) 3).td.map (·.phase)) ≠ some .purging) ∧
    (cycling (tEsc .purging 1 true) 14 = true ∧ (domAt (tEsc .purging 1 true) 14).thermal = false ∧
      (domAt (setDom (tEsc .purging 1 true) 14 { domAt tRun 14 with changing := some .on, state := .cold }) 14).changing = some .on) := by
  unfold accepts; decide +kernel

/-- An engine whose purge is late has its domain cycled, and after two cycles retired (R491). -/
theorem test_escalation :
    tNext (exec (.purgeTimeout 3 1 14) (tEsc .purging 0 false)) (fun t => (domAt t 14).changing == some .cold && reg t 0x2C10 3 0 == 1) = true ∧
    tNext (exec (.purgeTimeout 3 1 14) (tEsc .purging 2 false)) (fun t => (domAt t 14).retired) = true := by decide +kernel

/-! ### Witnesses: resets and start-up (18) -/

def tBoot (b : Boot) : State := { tRun with sys := { tRun.sys with boot := b, firmware := [] } }

def tErr {α : Type} (x : Except BoxFault α) (e : BoxFault) : Bool := match x with | .ok _ => false | .error f => f = e

theorem witness_ResetsEndWorkAndStartUpOpens :
    (firmwareRuns tRun = true ∧ firmwareRuns State.reset = false) ∧
    (accepts tRun .tap 0x2D00 1 [1] ∧ accepts tRun .tap 0x2D00 1 [2] ∧ stagingFree tRun = true ∧ stagingFree (put tRun 0x2020 4 1) = false) ∧
    (let s := put (tKeyed tRun) 0x2020 3 128;
      tOk (openBox s.sys.keyHash 5 0xFF (val s 0x2020 3) tBoxFw) (· == []) = true ∧ tErr (openBox s.sys.keyHash 5 0xFF (val s 0x2020 3) (tBoxFw.take 127)) .format ∧
      tErr (openBox State.reset.sys.keyHash 5 0xFF 128 tBoxFw) .key ∧ accepts s .tap 0x2D00 1 [2]) ∧
    (tRun.sys.boot = .running ∧ (tBoot .starting).sys.boot = .starting ∧ (tBoot .firmware).sys.boot = .firmware ∧
      (tBoot .cold).sys.boot = .cold ∧ State.reset.sys.boot = .held ∧ (tBoot .firmware).sys.firmware.isEmpty = true) ∧
    tOk (openBox (tKeyed (tBoot .cold)).sys.keyHash 5 0xFF tBoxFw.length tBoxFw) (· == []) = true ∧
    tErr (openBox (tKeyed (tBoot .firmware)).sys.keyHash 5 0xFF 0 []) .format ∧
    (tRun.mgmt.pSending = [] ∧ (sendP tRun 0x2380 2 0 [1, 0]).mgmt.pSending ≠ []) ∧
    (logMillisecond tRun = tRun.recov.logMs ∧ (let s := setBase tRun 3 { Base.reset with n := 1000000 }; logMillisecond s ≠ s.recov.logMs)) ∧
    accepts (setSelected tRun .tap 0x2C30 1 3) .tap 0x2C30 3 [1] := by
  unfold accepts; decide +kernel

/-- A warm reset keeps Ash and the time bases and sends the domains Cold; its cause and count follow (R555, R557). -/
theorem test_reset : tNext (exec (.warmReset .tap) tRun) (fun t =>
      (domAt t 5).state == .cold && val t 0x2D00 2 == 4 && reg t 0x2001 6 0 == 1 && t.sys.boot == .cold) = true ∧
    tNext (exec (.blkRst 999) tRun) (· == tRun) = true := by decide +kernel

/-! ### Witnesses: management (17) -/

/-- Node 5 with an open transfer of CB+0x00:05 of context 3. -/
def tXfer (up : Bool) (data : Bytes) : State :=
  setXfer tRun .can (some { index := 0x2380, sub := 2, who := .can 5, total := 2, data := data, upload := up })

theorem witness_CanServicesAreKept :
    (tRun.mgmt.nmt = .operational ∧ State.reset.mgmt.nmt = .bootUp ∧ tRun.mgmt.nodeId ≠ 77 ∧ val tRun 0x1017 0 ≠ 0 ∧
      val (put tRun 0x1017 0 0) 0x1017 0 = 0 ∧ tRun.mgmt.emcy = [] ∧ (emcy { tRun with mgmt := { tRun.mgmt with inhibited := true } } 0x8100 []).mgmt.emcy ≠ []) ∧
    (heard { tRun with mgmt := { tRun.mgmt with nmt := .stopped } } (.can 5) = false ∧ heard tRun (.can 5) = true ∧ tRun.mgmt.canX = none) ∧
    ((match serveRead (.can 5) 0x2380 2 tRun with | .ok (bs, _) => bs == [0xBC, 2] | .error _ => false) = true ∧
      (match serveRead (.can 5) 0x1FFF 0 tRun with | .ok _ => false | .error a => a == abExist) = true ∧ isFragment 0x2380 2 = false ∧
      (match serveWrite .tap 0x2380 2 [0xBC, 2] { probePs := [], staged := none } tRun with | .ok _ => true | _ => false) = true ∧
      (match serveWrite (.can 5) 0x2001 0 [0] { probePs := [], staged := none } tRun with | .error _ => true | _ => false) = true ∧
      (openAbort tRun (.can 5) 0x1FFF 0 3).isSome = true) ∧
    ((tXfer true [1]).mgmt.canX.map (·.who) = some (.can 5) ∧ heard (tXfer true [1]) (.can 5) = true ∧
      (match serveWrite .tap 0x2380 2 ([0xBC] ++ [2]) { probePs := [], staged := none } (setXfer (tXfer false [0xBC]) .can none) with
        | .ok _ => true | _ => false) = true) := by decide +kernel

/-- The heartbeat of an Operational node carries 0x05, and an unknown object aborts with 0x06020000 (R518, R524). -/
theorem test_can :
    (match exec .heartbeatTimer (put tRun 0x1017 0 100) with
      | .next t => t == emit (put tRun 0x1017 0 100) (.can (0x700 + tRun.mgmt.nodeId) [5])
      | _ => false) = true ∧
    (match exec (.usdoUpload 5 0x1FFF 0 (.first 60)) tRun with
      | .next t => t == respond tRun (.can 5) 0x1FFF 0 0x06020000 []
      | _ => false) = true := by decide +kernel

/-- A mailbox frame of an OP on an object. -/
def tBoxFrame (op : Byte) (i sub total off : Nat) (data : Bytes) : Bytes :=
  [op, 0] ++ toLe 2 i ++ [BitVec.ofNat 8 sub, 0, 0, 0] ++ toLe 4 total ++ toLe 4 off ++ data

def tEnv : Env := { probePs := [], staged := none }

/-- The TAP with an open transfer, or with a snapshot of 2,000 bytes. -/
def tTapX : State := setXfer tRun .tap (some { index := 0x2380, sub := 2, who := .tap, total := 2, data := [0xBC], upload := false })
def tSnap : State := setSnap tRun .tap (some (0x2C20, 2, List.replicate 2000 0))

def tMail (op : Byte) : Bytes := tPkt 5 0 none 0 7 (tBoxFrame op 0x2380 2 0 0 [])

theorem witness_MailboxTapAndWritesAreServed :
    (([1, 2, 3].all fun op => tEdgeOk tMesh1 5 (tMail op) && byteAt (tMail op) 32 == op) = true ∧
      (let u := acceptPkt tMesh1 5 (tMail 1); let p := pktOf (tMail 1);
        flueDown u = false ∧ awaited u p = false ∧ u.mgmt.served = [] ∧
        (let r := serveFrame (.mesh 4 5) p.payload (some (5, tMail 1)) tEnv u; r.1.isSome = true ∧ served r.2 = true))) ∧
    ((byteAt (tBoxFrame 4 0 0 0 0 []) 0).toNat = 4 ∧
      (let f := tBoxFrame 1 0x2380 2 0 0 []; (byteAt f 1).toNat ≤ 1 ∧ zeroAt f 5 3 = true ∧ leAt f 12 4 = 0 ∧ xferOf tRun (pathOf .tap) = none ∧
        leAt f 2 2 = 0x2380 ∧ (byteAt f 4).toNat = 2) ∧
      (match serveRead .tap 0x1FFF 0 (setSnap tRun .tap none) with | .error _ => true | .ok _ => false) = true ∧
      (match serveRead .tap 0x2380 2 (setSnap tRun .tap none) with | .error _ => false | .ok (bs, _) => decide (bs.length ≤ 1008)) = true ∧
      snapOf tSnap (pathOf .tap) = some (0x2C20, 2, List.replicate 2000 0) ∧ 500 + 1008 < 2000 ∧
      (let f := tBoxFrame 2 0x2380 2 2 0 [0xBC, 2]; leAt f 8 4 = (f.drop 16).length) ∧
      (match serveWrite .tap 0x2001 0 [0] tEnv tRun with | .error _ => true | _ => false) = true ∧
      (xferOf tTapX (pathOf .tap)).map (fun t => (t.upload, t.index, t.sub, t.data.length)) = some (false, 0x2380, 2, 1)) := by decide +kernel

/-- Grants, fragments and plain writes. -/
theorem witness_GrantsFragmentsAndWrites :
    (let s := setSelected tRun .tap 0x2010 1 4; let d := [2, 1] ++ List.replicate 14 0;
      accepts s .tap 0x2010 0x11 d ∧ d.length = 16 ∧ grantOk (leNat d) = true ∧ grantOk (leNat (List.replicate 16 (7 : Byte))) = false ∧
      accepts s .tap 0x2010 0x11 (List.replicate 16 (7 : Byte))) ∧
    blockGrant (tabSet 0 tRun.mgmt.grants 0 0) = false ∧
    tRun.mgmt.staged = none ∧
    (let s := tKeyed (tWeights none); let g : Staged := { who := .tap, index := cb 3 5, sub := 0x0A, sel := 0, data := tBoxOpal, mailbox := none };
      (match applyFragment g tEnv (put { s with mgmt := { s.mgmt with staged := none } } 0x2020 4 0) with | .ok _ => true | _ => false) = true ∧
      (match applyFragment { g with data := tBoxEns } tEnv (put { s with mgmt := { s.mgmt with staged := none } } 0x2020 4 0) with
        | .error _ => true | _ => false) = true) ∧
    (heard { tRun with mgmt := { tRun.mgmt with nmt := .stopped } } (.can 5) = false ∧ isKill 0x2380 2 = false ∧
      (writeAbort tRun .tap 0x2001 0 [0]).isSome = true ∧ accepts tRun .tap 0x2380 2 [0xBC, 2] ∧
      (match applyWrite .tap 0x2380 2 [0xBC, 2] tEnv tRun with | .ok _ => true | _ => false) = true ∧
      accepts tRun .tap 0x2917 3 [2] ∧
      (match applyWrite .tap 0x2917 3 [2] tEnv tRun with | .error _ => true | _ => false) = true) := by
  unfold accepts; decide +kernel

/-- IDCODE shifts out 0x1E0814E3, and 100 ns of TRST_N select it (R530). -/
theorem test_tap : tNext (exec (.tapReset 99) (setTap tRun 0x20)) (fun t => t.mgmt.tapInstr == 0x20) = true ∧
    tNext (exec (.tapReset 100) (setTap tRun 0x20)) (fun t => t.mgmt.tapInstr == 0x01) = true := by decide +kernel

end
end

section
/-! SUPPORT. The decision stage of Garnet (R262, R263): what one rule of the list does to the evaluation, and that the fold of
`argmaxOf` ends at an element which beats all before it and which none after it beats. -/

namespace Sys2Proof.Proofs.GarnetDecision
open Sys2Proof Sys2Proof.Machine

/-! ### Tests and the rule list (R262) -/

/-- Whether the tests of a rule hold for a score: test A, and test B where USE_B is set. -/
def TestsMet (score : List (BitVec 32)) (r : Rule) : Prop :=
  testHolds score r.testA r.thrA = true ∧ (bit r.testB.toNat 6 = true → testHolds score r.testB r.thrB = true)

theorem testHolds_of_nan {score : List (BitVec 32)} {t : Byte} (thr : BitVec 32)
    (h : dec32 (score.getD (t.toNat % 4) 0) = .nan) : testHolds score t thr = false := by
  have hlt : ∀ v, ltVal .nan v = false := fun v => rfl
  have hge : ∀ v, geVal .nan v = false := fun v => rfl
  simp only [testHolds, h, hlt, hge, ite_self]

/-- The condition that `firstRule` evaluates is `TestsMet`. -/
theorem tests_eq_true_iff (score : List (BitVec 32)) (r : Rule) :
    (testHolds score r.testA r.thrA && (!bit r.testB.toNat 6 || testHolds score r.testB r.thrB)) = true ↔ TestsMet score r := by
  unfold TestsMet
  cases bit r.testB.toNat 6 <;> simp

theorem firstRule_cons_of_stop {r : Rule} (score : List (BitVec 32)) (i : Nat) (l : List Rule) (h : r.op = 0) :
    firstRule score i (r :: l) = none := by
  simp [firstRule, h]

theorem firstRule_cons_of_decides {score : List (BitVec 32)} {r : Rule} (i : Nat) (l : List Rule)
    (h : r.op = 2 ∨ r.op = 1 ∧ TestsMet score r) : firstRule score i (r :: l) = some (i, r) := by
  obtain h2 | ⟨h1, ht⟩ := h
  · simp [firstRule, h2]
  · simp [firstRule, h1, (tests_eq_true_iff score r).2 ht]

theorem firstRule_cons_of_fails {score : List (BitVec 32)} {r : Rule} (i : Nat) (l : List Rule)
    (h : r.op = 1 ∧ ¬TestsMet score r) : firstRule score i (r :: l) = firstRule score (i + 1) l := by
  obtain ⟨h1, ht⟩ := h
  have hf := mt (tests_eq_true_iff score r).1 ht
  simp [firstRule, h1, hf]

/-- Evaluation passes over leading rules that do not decide. -/
theorem firstRule_eq_drop {score : List (BitVec 32)} (l : List Rule) (i k : Nat)
    (h : ∀ j q, j < k → l[j]? = some q → q.op = 1 ∧ ¬TestsMet score q) :
    firstRule score i l = firstRule score (i + k) (l.drop k) := by
  induction k generalizing i l with
  | zero => rfl
  | succ k ih =>
    cases l with
    | nil => rfl
    | cons r l =>
      have hr := h 0 r k.succ_pos rfl
      have hl := ih l (i + 1) fun j q hj hq => h (j + 1) q (Nat.succ_lt_succ hj) hq
      rw [firstRule_cons_of_fails i l hr, hl, List.drop_succ_cons, Nat.add_right_comm, Nat.add_assoc]

/-- The list answers what it answers from any rule on that has only failing rules before it. -/
theorem firstRule_eq_of_getElem? {score : List (BitVec 32)} {l : List Rule} {k : Nat} {r : Rule} (hr : l[k]? = some r)
    (h : ∀ j q, j < k → l[j]? = some q → q.op = 1 ∧ ¬TestsMet score q) :
    firstRule score 0 l = firstRule score k (r :: l.drop (k + 1)) := by
  obtain ⟨hk, rfl⟩ := List.getElem?_eq_some_iff.1 hr
  rw [firstRule_eq_drop l 0 k h, Nat.zero_add, List.getElem_cons_drop]

/-! ### The largest element (R263) -/

/-- One step of the search for the largest element: the later one replaces the one kept only where it is greater. -/
def keepLarger (b : Option (BitVec 32 × Nat)) (x : BitVec 32 × Nat) : Option (BitVec 32 × Nat) :=
  match b with
  | none => some x
  | some y => if ltVal (dec32 y.1) (dec32 x.1) then some x else some y

theorem argmaxOf_of_nan {score : List (BitVec 32)} (h : ∃ x, x ∈ score ∧ dec32 x = .nan) : argmaxOf score = 4 := by
  have hany : (score.any fun x => dec32 x = .nan) = true := by simpa using h
  exact if_pos hany

theorem argmaxOf_of_no_nan {score : List (BitVec 32)} (h : ∀ x, x ∈ score → dec32 x ≠ .nan) :
    argmaxOf score = (score.zipIdx.foldl keepLarger none).elim 0 (·.2) := by
  have hany : ¬(score.any fun x => dec32 x = .nan) = true := by simpa using h
  exact if_neg hany

/-- A step keeps what it had or takes the element it looks at. -/
theorem keepLarger_eq_some {b : Option (BitVec 32 × Nat)} {x y : BitVec 32 × Nat} (h : keepLarger b x = some y) :
    b = some y ∨ x = y := by
  cases b with
  | none => exact .inr (Option.some.inj h)
  | some z =>
    simp only [keepLarger] at h
    split at h
    · exact .inr (Option.some.inj h)
    · exact .inl h

theorem mem_of_foldl_keepLarger (l : List (BitVec 32 × Nat)) : ∀ y, l.foldl keepLarger none = some y → y ∈ l := by
  refine List.foldlRecOn (motive := fun b => ∀ y, b = some y → y ∈ l) l keepLarger (fun y h => nomatch h) fun b ih x hx y h => ?_
  obtain hb | rfl := keepLarger_eq_some h
  · exact ih y hb
  · exact hx

theorem keepLarger_of_beats {b : Option (BitVec 32 × Nat)} {x : BitVec 32 × Nat}
    (h : ∀ y, b = some y → ltVal (dec32 y.1) (dec32 x.1) = true) : keepLarger b x = some x := by
  cases b with
  | none => rfl
  | some y => exact if_pos (h y rfl)

theorem foldl_keepLarger_of_unbeaten {x : BitVec 32 × Nat} (l : List (BitVec 32 × Nat))
    (h : ∀ y, y ∈ l → ltVal (dec32 x.1) (dec32 y.1) = false) : l.foldl keepLarger (some x) = some x := by
  induction l with
  | nil => rfl
  | cons y l ih =>
    have hy : keepLarger (some x) y = some x := by simp [keepLarger, h y List.mem_cons_self]
    rw [List.foldl_cons, hy, ih fun z hz => h z (List.mem_cons_of_mem y hz)]

/-- The search ends at the element that beats every one before it and that none after it beats. -/
theorem argmaxOf_append_cons {pre post : List (BitVec 32)} {v : BitVec 32}
    (hnan : ∀ x, x ∈ pre ++ v :: post → dec32 x ≠ .nan) (hpre : ∀ y, y ∈ pre → ltVal (dec32 y) (dec32 v) = true)
    (hpost : ∀ y, y ∈ post → ltVal (dec32 v) (dec32 y) = false) : argmaxOf (pre ++ v :: post) = pre.length := by
  have hv : keepLarger (pre.zipIdx.foldl keepLarger none) (v, pre.length) = some (v, pre.length) :=
    keepLarger_of_beats fun y hy => hpre y.1 (List.fst_mem_of_mem_zipIdx (mem_of_foldl_keepLarger _ y hy))
  have hrest := foldl_keepLarger_of_unbeaten (x := (v, pre.length)) (post.zipIdx (pre.length + 1)) fun y hy =>
    hpost y.1 (List.fst_mem_of_mem_zipIdx hy)
  rw [argmaxOf_of_no_nan hnan, List.zipIdx_append, Nat.zero_add, List.zipIdx_cons, List.foldl_append, List.foldl_cons, hv, hrest]
  rfl

/-- The same by indices: an element that is greater than each one of lower index and that none of higher index exceeds. -/
theorem argmaxOf_eq_of_largest {l : List (BitVec 32)} {k : Nat} (hk : k < l.length) (hnan : ∀ x, x ∈ l → dec32 x ≠ .nan)
    (hlow : ∀ j (hj : j < l.length), j < k → ltVal (dec32 l[j]) (dec32 l[k]) = true)
    (hhigh : ∀ j (hj : j < l.length), k < j → ltVal (dec32 l[k]) (dec32 l[j]) = false) : argmaxOf l = k := by
  have hsplit : l.take k ++ l[k] :: l.drop (k + 1) = l := by rw [List.getElem_cons_drop, List.take_append_drop]
  have hpre : ∀ y, y ∈ l.take k → ltVal (dec32 y) (dec32 l[k]) = true := by
    intro y hy
    obtain ⟨j, hj, rfl⟩ := List.mem_take_iff_getElem.1 hy
    exact hlow j (by omega) (by omega)
  have hpost : ∀ y, y ∈ l.drop (k + 1) → ltVal (dec32 l[k]) (dec32 y) = false := by
    intro y hy
    obtain ⟨j, hj, rfl⟩ := List.mem_drop_iff_getElem.1 hy
    exact hhigh (k + 1 + j) (by omega) (by omega)
  calc argmaxOf l = argmaxOf (l.take k ++ l[k] :: l.drop (k + 1)) := by rw [hsplit]
    _ = (l.take k).length := argmaxOf_append_cons (by rwa [hsplit]) hpre hpost
    _ = k := List.length_take_of_le (Nat.le_of_lt hk)

/-! ### The decision -/

theorem decideScore_of_firstRule {e : Ensemble} {score : List (BitVec 32)} {k : Nat} {r : Rule} (hm : e.argmax = false)
    (h : firstRule score 0 e.rules = some (k, r)) : decideScore e score = (r.choice, k) := by
  simp [decideScore, hm, h]

theorem decideScore_of_no_rule {e : Ensemble} {score : List (BitVec 32)} (hm : e.argmax = false)
    (h : firstRule score 0 e.rules = none) : decideScore e score = (0xFFFF, noRule) := by
  simp [decideScore, hm, h]

theorem decideScore_of_argmax {e : Ensemble} {score : List (BitVec 32)} {k : Nat} {r : Rule} (hm : e.argmax = true)
    (hk : argmaxOf (score.take e.lw) = k) (hr : e.rules[k]? = some r) : decideScore e score = (r.choice, k) := by
  simp [decideScore, hm, hk, hr]

/-- Settles O41. In rule-list mode the evaluation passes over the rules that do not decide; in argmax mode the search for the
largest element needs no order on the values, only what the winner's comparisons answer. -/
theorem firstDecidingRuleGivesTheChoice : Obligations.FirstDecidingRuleGivesTheChoice := by
  intro e score
  refine ⟨fun k r hm hr hfail => ?_, fun k r hm hlw hlen hr hnan hlow hhigh => ?_, fun r hm hr hnan => ?_,
    fun t thr h => testHolds_of_nan thr h⟩
  · have hlist := firstRule_eq_of_getElem? hr hfail
    refine ⟨fun hdec => ?_, fun hstop => ?_⟩
    · exact decideScore_of_firstRule hm (hlist.trans (firstRule_cons_of_decides _ _ hdec))
    · exact decideScore_of_no_rule hm (hlist.trans (firstRule_cons_of_stop _ _ _ hstop))
  · have hbound : ∀ j, j < (score.take e.lw).length → j < e.lw ∧ j < score.length := fun j hj =>
      Nat.lt_min.1 (List.length_take ▸ hj)
    have hget : ∀ j (hj : j < (score.take e.lw).length), (score.take e.lw)[j] = score.getD j 0 := fun j hj => by
      rw [List.getElem_take, List.getD_eq_getElem?_getD, List.getElem?_eq_getElem (hbound j hj).2, Option.getD_some]
    have hk : k < (score.take e.lw).length := List.length_take ▸ Nat.lt_min.2 ⟨hlw, hlen⟩
    refine decideScore_of_argmax hm (argmaxOf_eq_of_largest hk hnan ?_ ?_) hr
    · intro j hj hjk
      rw [hget, hget]
      exact hlow j (hbound j hj).1 (hbound j hj).2 hjk
    · intro j hj hkj
      rw [hget, hget]
      exact hhigh j (hbound j hj).1 (hbound j hj).2 hkj
  · exact decideScore_of_argmax hm (argmaxOf_of_nan hnan) hr

end Sys2Proof.Proofs.GarnetDecision
end

section
/-! SUPPORT. The Hearth's deadlock, spill, sampling and retirement of sites (R390–R396): what the detector answers in each of its
cases, what one spill leaves at a queue's head, and that a snapshot takes each context once, whatever the order. -/

namespace Sys2Proof.Proofs.HearthFabric
open Sys2Proof Sys2Proof.Machine

/-! ### Deadlock and spill (R390–R393) -/

section
variable {s : State} {c : BitVec 6} {slot : Nat} {g : HConfig}

/-- A context without tokens, or one that waits for something outside, is not deadlocked (R390). -/
theorem deadlockDetect_of_quiet (hg : configIn s c.toNat .active = some (slot, g))
    (h : tokenCount (ctxAt s c.toNat).run = 0 ∨ externalWait s c.toNat g = true) :
    exec (.deadlockDetect c) s = .next s := by
  change execDeadlockDetect c s = _
  obtain h | h := h <;> simp [execDeadlockDetect, hg, h]

/-- A deadlock that touches a program with BOUND set is a hang (R391). -/
theorem deadlockDetect_of_bound (hg : configIn s c.toNat .active = some (slot, g)) (hl : isLoaded s c.toNat = true)
    (ht : tokenCount (ctxAt s c.toNat).run ≠ 0) (hw : externalWait s c.toNat g = false)
    (hb : boundQueueHeld (ctxAt s c.toNat).run g = true) :
    exec (.deadlockDetect c) s = .next (deadlockHang s c.toNat) := by
  change execDeadlockDetect c s = _
  simp [execDeadlockDetect, hg, hl, ht, hw, hb]

/-- Any other deadlock spills every blocking full queue, unless there is none or the quota does not suffice (R392, R393). -/
theorem deadlockDetect_of_unbound (hg : configIn s c.toNat .active = some (slot, g)) (hl : isLoaded s c.toNat = true)
    (ht : tokenCount (ctxAt s c.toNat).run ≠ 0) (hw : externalWait s c.toNat g = false)
    (hb : boundQueueHeld (ctxAt s c.toNat).run g = false) {quota : Nat} (hq : val s (cb c.toNat 7) 0xB = quota)
    {blocked : List (Nat × Nat)} (hbl : (blockingQueues (ctxAt s c.toNat).run quota g).eraseDups = blocked)
    {spilled : HRun} (hs : blocked.foldl spillQueue (ctxAt s c.toNat).run = spilled) :
    exec (.deadlockDetect c) s = .next (if blocked = [] ∨ quota < spillCount spilled then deadlockHang s c.toNat
      else bumpBy 64 (setRun s c.toNat spilled) (cb c.toNat 7) 0xC blocked.length) := by
  change execDeadlockDetect c s = _
  simp [execDeadlockDetect, hg, hl, ht, hw, hb, hq, hbl, hs]

end

section
variable {r : HRun} {site inp : Nat} {t : Token} {rest : List Token}

theorem spillQueue_of_cons (h : queueAt r site inp = t :: rest) : spillQueue r (site, inp) =
    { r with queues := tabSet [] r.queues (qkey site inp) [t],
             spill := tabSet [] r.spill (qkey site inp) (rest ++ spillAt r site inp) } := by
  simp only [spillQueue, h]

/-- A spilled queue keeps its head (R392). -/
theorem queueAt_spillQueue (h : queueAt r site inp = t :: rest) : queueAt (spillQueue r (site, inp)) site inp = [t] := by
  rw [spillQueue_of_cons h, queueAt, tabGet_tabSet, if_pos rfl]

/-- The tokens behind the head go before those spilled earlier (R392). -/
theorem spillAt_spillQueue (h : queueAt r site inp = t :: rest) :
    spillAt (spillQueue r (site, inp)) site inp = rest ++ spillAt r site inp := by
  rw [spillQueue_of_cons h, spillAt, tabGet_tabSet, if_pos rfl]

end

/-! ### Sampling (R394) -/

/-- Context `c` after a snapshot in `s`. -/
def sampledCtx (s : State) (c : Nat) : Ctx :=
  match configIn s c .active with
  | none => ctxAt s c
  | some (_, g) => { ctxAt s c with run := sampleConfig g (ctxAt s c).run }

/-- The part of a snapshot that reads context `c`. -/
def sampleCtx (s : State) (c : Nat) : State :=
  match configIn s c .active with
  | none => s
  | some (_, g) => setRun s c (sampleConfig g (ctxAt s c).run)

theorem queueSample_of_off {s : State} (h : val s 0x2800 2 = 0) : exec .queueSample s = .next s := by
  change execQueueSample s = _
  rw [execQueueSample, if_pos h]

/-- A snapshot takes the contexts one by one and counts itself in 0x2800:03. -/
theorem queueSample_of_on {s : State} (h : val s 0x2800 2 ≠ 0) :
    exec .queueSample s = .next (bump (allCtxs.foldl sampleCtx s) 0x2800 3) := by
  change execQueueSample s = _
  rw [execQueueSample, if_neg h]
  rfl

theorem sampleCtx_parts (s : State) (c : Nat) : ∃ x, sampleCtx s c = { s with ctxs := x } := by
  unfold sampleCtx
  split
  · exact ⟨s.ctxs, rfl⟩
  · exact ⟨_, rfl⟩

theorem foldl_sampleCtx_parts (l : List Nat) (s : State) : ∃ x, l.foldl sampleCtx s = { s with ctxs := x } := by
  induction l generalizing s with
  | nil => exact ⟨s.ctxs, rfl⟩
  | cons c l ih =>
    obtain ⟨x, hx⟩ := sampleCtx_parts s c
    obtain ⟨y, hy⟩ := ih (sampleCtx s c)
    exact ⟨y, by rw [List.foldl_cons, hy, hx]⟩

theorem ctxAt_sampleCtx (s : State) (c j : Nat) : ctxAt (sampleCtx s c) j = if j = c then sampledCtx s c else ctxAt s j := by
  unfold sampleCtx sampledCtx
  split
  · split
    · next h => rw [h]
    · rfl
  · rw [setRun, ctxAt_setCtx]

/-- What a snapshot makes of a context does not depend on those read before it. -/
theorem sampledCtx_sampleCtx {s : State} {c j : Nat} (h : j ≠ c) : sampledCtx (sampleCtx s c) j = sampledCtx s j := by
  have hconf : configIn (sampleCtx s c) j .active = configIn s j .active := by
    obtain ⟨x, hx⟩ := sampleCtx_parts s c
    rw [hx]
    rfl
  rw [sampledCtx, hconf, ctxAt_sampleCtx, if_neg h, sampledCtx]

theorem ctxAt_foldl_sampleCtx {l : List Nat} (hl : l.Nodup) (s : State) (j : Nat) :
    ctxAt (l.foldl sampleCtx s) j = if j ∈ l then sampledCtx s j else ctxAt s j := by
  induction l generalizing s with
  | nil => rfl
  | cons c l ih =>
    obtain ⟨hc, hl⟩ := List.nodup_cons.1 hl
    rw [List.foldl_cons, ih hl]
    by_cases h : j = c
    · subst h
      simp [hc, ctxAt_sampleCtx]
    · simp [h, ctxAt_sampleCtx, sampledCtx_sampleCtx h]

theorem ctxAt_bump (s : State) (i sub c : Nat) : ctxAt (bump s i sub) c = ctxAt s c := rfl

/-- A snapshot that is due: its count, every context, and the parts it leaves. -/
theorem queueSample_effect {s : State} (h : val s 0x2800 2 ≠ 0) :
    ∃ t, exec .queueSample s = .next t ∧ reg t 0x2800 3 0 = (reg s 0x2800 3 0 + 1) % 2 ^ 64 ∧
      (∀ c, c < 64 → ctxAt t c = sampledCtx s c) ∧
      t.work = s.work ∧ t.grid = s.grid ∧ t.chim = s.chim ∧ t.quartz = s.quartz := by
  obtain ⟨x, hx⟩ := foldl_sampleCtx_parts allCtxs s
  refine ⟨_, queueSample_of_on h, ?_, fun c hc => ?_, ?_⟩
  · rw [bump, bumpBy, reg_setReg_self, hx]
    rfl
  · have hmem : c ∈ allCtxs := List.mem_range.2 hc
    rw [ctxAt_bump, ctxAt_foldl_sampleCtx (l := allCtxs) List.nodup_range, if_pos hmem]
  · rw [hx]
    exact ⟨rfl, rfl, rfl, rfl⟩

/-! ### Clearing the histograms (R401) -/

section
variable {s : State} {q : Requester} {i sub : Nat} {data : Bytes} {go : State → Ans} {a : BitVec 32}

/-- A write that the dictionary's own checks refuse is answered with their code, whatever the object's rules. -/
theorem request_of_writeAbort (hh : heard s q = true) (hd : data ≠ []) (ha : writeAbort s q i sub data = some a) :
    request s q i sub data go = refusedWith s q i sub a := by
  simp [request, write, refusedWith, hh, hd, ha]

theorem writeAbort_of_not_inRange {r : Row} (hs : served s = true) (hacc : accessAbort s q i sub = none)
    (ho : otherOpen s q i sub = false) (hr : findRow i sub = some r) (hlen : lengthAbort r data = none)
    (hv : inRange r data = false) : writeAbort s q i sub data = some abRange := by
  simp [writeAbort, hs, hacc, ho, hr, hlen, hv]

end

/-- CB+0x07:12 in the object table: one byte, write only, 1 alone in range. -/
def histogramClearRow : Row := row 0x3007 64 16 0x12 0x12 (.u 1) .wo 0x0 .v (.between 1 1) false

theorem findRow_histogramClear : ∀ c : BitVec 6, findRow (cb c.toNat 7) 0x12 = some histogramClearRow := by decide +kernel

theorem inRange_histogramClear {v : Byte} (h : v ≠ 1) : inRange histogramClearRow [v] = false := by
  have hv : v.toNat ≠ 1 := fun e => h (BitVec.eq_of_toNat_eq e)
  have hval : tyValue (.u 1) [v] = (v.toNat : Int) := congrArg Int.ofNat (leNat_byte v)
  simp only [inRange, histogramClearRow, row, hval, Bool.and_eq_false_iff, decide_eq_false_iff_not]
  omega

/-! ### Retirement of a site (R395, R396) -/

section
variable {s : State} {x : Nat}

/-- The state once a site is entered as retired, counted and reported, and the running configurations with a unit there are
Recovering. -/
def siteReported (s : State) (x : Nat) : State :=
  let u := bump32 { s with grid := { s.grid with retired := s.grid.retired ++ [x] } } 0x2800 0xA
  let u := noteRetired u 1 x ((s.grid.retired ++ [x]).filter fun y => siteGroup y = siteGroup x).length
  ((heldConfigs u).filter fun h => (unitAt h.2 x).isSome).foldl (fun u h => enterRecovering u h.1 0x0206) u

theorem retireSite_of_lost (hx : x ∈ s.grid.retired) (hu : columnUnusable s (siteCol x) = true) : retireSite s x = s := by
  simp [retireSite, hx, hu]

/-- Any other loss is reported and costs the column its place: onto the spare, or for good. -/
theorem retireSite_of_usable (h : x ∉ s.grid.retired ∨ columnUnusable s (siteCol x) = false) :
    retireSite s x = if (spareColumn (siteReported s x) (siteGroup x)).isNone then
        rewriteColumn (soot (takeSpare (siteReported s x) (siteGroup x) (siteCol x % 8)) 0x2801 none x (siteGroup x)) (siteCol x)
      else noteFlue s (loseColumn (soot (siteReported s x) 0x2801 none (x + 65536) (siteGroup x)) (siteCol x)) := by
  have hc : ¬(s.grid.retired.contains x && columnUnusable s (siteCol x)) = true := by
    obtain h | h := h <;> simp [h]
  rw [retireSite, if_neg hc]
  rfl

theorem siteRetire_of_siteOk {site : BitVec 12} (h : siteOk site.toNat = true) :
    exec (.siteRetire site) s = .next (retireSite s site.toNat) := by
  change execSiteRetire site s = _
  simp [execSiteRetire, h]

end

/-- Settles O49. The deadlock and the site follow their cases one to one; a snapshot is a fold over the contexts, each of which
it takes once. -/
theorem deadlocksSpillsSamplesAndSites : Obligations.DeadlocksSpillsSamplesAndSites := by
  refine ⟨fun s c slot g hg hl => ⟨deadlockDetect_of_quiet hg, deadlockDetect_of_bound hg hl,
      fun ht hw hb => ?_⟩, fun r site inp t rest h => ⟨queueAt_spillQueue h, spillAt_spillQueue h⟩,
    fun s => ⟨queueSample_of_off, fun h => ?_⟩, fun s q c v => ⟨?_, ?_⟩, fun s site hx => ⟨?_, ?_⟩⟩
  · have hd := deadlockDetect_of_unbound hg hl ht hw hb rfl rfl rfl
    refine ⟨fun h => ?_, fun hne hle => ?_⟩
    · rw [hd, if_pos h]
      rfl
    · rw [hd, if_neg (not_or.2 ⟨hne, Nat.not_lt.2 hle⟩)]
  · obtain ⟨t, ht, hcount, hctx, hframe⟩ := queueSample_effect h
    refine ⟨t, ht, hcount, fun c hc => ⟨fun slot g hg => ?_, fun hg => ?_⟩, hframe⟩
    · rw [hctx c hc, sampledCtx, hg]
    · rw [hctx c hc, sampledCtx, hg]
  · rintro rfl ha
    exact congrArg Host.Outcome.next (request_ok ha rfl)
  · intro hv hh hs hacc ho
    have hrange := writeAbort_of_not_inRange hs hacc ho (findRow_histogramClear c) rfl (inRange_histogramClear hv)
    exact congrArg Host.Outcome.next (request_of_writeAbort hh (List.cons_ne_nil v []) hrange)
  · intro hr hu
    rw [siteRetire_of_siteOk hx, retireSite_of_lost hr hu]
  · intro h
    rw [siteRetire_of_siteOk hx, retireSite_of_usable h]
    refine ⟨fun hsp => ?_, fun hsp => ?_⟩
    · exact congrArg Host.Outcome.next (if_pos (Option.isNone_iff_eq_none.2 hsp))
    · exact congrArg Host.Outcome.next (if_neg (mt Option.isNone_iff_eq_none.1 hsp))

end Sys2Proof.Proofs.HearthFabric
end

section
/-! SUPPORT. Record intake, the risk checks and the acceptance of a reply (R403, R404, R409, R413–R415, R418, R420): what the
intake answers in each of its cases, which check fails first, and that an accepted reply takes its tokens and then only waits. -/

namespace Sys2Proof.Proofs.ChimneyIntake
open Sys2Proof Sys2Proof.Machine

/-! ### Composition (R409, R413, R414, R423) -/

section
variable {s : State} {m : Nat} {x : Msg} {r : Record} {t : Template}

/-- The reply of a record before its insertions: the body that its template gives, and no quantity or price yet. -/
def blankReply (s : State) (m : Nat) (x : Msg) (r : Record) (t : Template) : Reply := newReply s m x r t (t.body.take t.len) 0 0

/-- The price that the checks take: the template's, or the reference of the message (R413). -/
def checkedPrice (s : State) (x : Msg) (price : Option Int) : Option Int :=
  match price with | some p => some p | none => referenceOf s x

/-- A reply whose frame has a bad verdict already ends with a no-send (R189). -/
theorem composeReply_of_bad_verdict (h : replyVerdict s (blankReply s m x r t) = some false) :
    composeReply s m x r t = bump (endComposed s m (blankReply s m x r t)) (cb x.ctx 2) 0x0F :=
  if_pos h

/-- A reply of a session that is not Open ends with a no-send (R423). -/
theorem composeReply_of_session_not_open (hv : replyVerdict s (blankReply s m x r t) ≠ some false) (ht : t.sess = true)
    (ho : val s (0x2910 + t.session) 2 ≠ 1) :
    composeReply s m x r t = bump (endComposed s m (blankReply s m x r t)) (cb x.ctx 8) 8 :=
  (if_neg hv).trans (if_pos (by simp [ht, ho]))

theorem not_session_closed (ho : t.sess = false ∨ val s (0x2910 + t.session) 2 = 1) :
    ¬(t.sess && val s (0x2910 + t.session) 2 ≠ 1) = true := by
  obtain h | h := ho <;> simp [h]

section
variable (hv : replyVerdict s (blankReply s m x r t) ≠ some false) (ho : t.sess = false ∨ val s (0x2910 + t.session) 2 = 1)
include hv ho

/-- A bad insertion, or a quantity or price that exceeds its slot, ends the reply with a no-send (R409). -/
theorem composeReply_of_bad_insertion
    (h : composeBody x r t.slots (blankReply s m x r t).body = none ∨ quantityOf s x r t = none ∨ priceOf s x r t = none) :
    composeReply s m x r t = bump (endComposed s m (blankReply s m x r t)) (cb x.ctx 8) 6 := by
  refine (if_neg hv).trans ((if_neg (not_session_closed ho)).trans ?_)
  split
  · next hb hq hp => simp [blankReply, hb, hq, hp] at h
  · rfl

/-- A reply with its insertions goes through the risk checks: a failing one ends it, otherwise it is accepted (R413, R414). -/
theorem composeReply_of_composed {body : Bytes} {qty : Nat} {price : Option Int}
    (hb : composeBody x r t.slots (blankReply s m x r t).body = some body) (hq : quantityOf s x r t = some qty)
    (hp : priceOf s x r t = some price) {p : Option Int} (hr : checkedPrice s x price = p) :
    composeReply s m x r t =
      if riskCheck s x t qty p ≠ 0 then riskRecord (endComposed s m (blankReply s m x r t)) x.ctx x.tag r.choice.toNat
        (riskCheck s x t qty p) qty (BitVec.ofInt 64 (p.getD 0))
      else acceptReply s x t
        { blankReply s m x r t with body := body, qty := BitVec.ofNat 64 qty, price := BitVec.ofInt 64 (p.getD 0) } := by
  subst hr
  refine (if_neg hv).trans ((if_neg (not_session_closed ho)).trans ?_)
  rw [blankReply] at hb
  simp only [hb, hq, hp]
  rfl

end
end

/-! ### Intake (R16, R403, R404) -/

/-- The state once message `m` is out of the intake of context `n`. -/
def leaveIntake (s : State) (n m : Nat) : State :=
  { s with chim := { s.chim with intake := tabSet [] s.chim.intake n ((tabGet [] s.chim.intake n).filter (· != m)) } }

/-- The state once the record of message `m` has entered and its sample is written. -/
def recordEntered (s : State) (m : Nat) (x : Msg) (r : Record) : State :=
  chimSample (setMsg s m { x with entered := true }) m 1 r.choice.toNat

section
variable {s : State} {c : BitVec 6} {m : Nat} {x : Msg} {r : Record}

theorem recordIntake_of_idle (h : nextRecord s c.toNat = none ∨ domIsOn s 32 = false) : exec (.recordIntake c) s = .next s := by
  change execRecordIntake c s = _
  obtain h | h := h <;> simp [execRecordIntake, h]

section
variable (hd : domIsOn s 32 = true) (hn : nextRecord s c.toNat = some (m, x, r))
include hd hn

theorem recordIntake_of_stale (ht : tagCurrent (leaveIntake s c.toNat m) x.tag = false) :
    exec (.recordIntake c) s = .next (staleDrop (leaveIntake s c.toNat m) x.tag) := by
  change execRecordIntake c s = _
  unfold leaveIntake at ht ⊢
  simp [execRecordIntake, hd, hn, ht]

variable (ht : tagCurrent (leaveIntake s c.toNat m) x.tag = true)
include ht

/-- A record whose message has its outcome only leaves the intake. -/
theorem recordIntake_of_delivered (hx : x.delivered = true) : exec (.recordIntake c) s = .next (leaveIntake s c.toNat m) := by
  change execRecordIntake c s = _
  unfold leaveIntake at ht ⊢
  simp [execRecordIntake, hd, hn, ht, hx]

theorem recordIntake_of_current (hx : x.delivered = false) :
    exec (.recordIntake c) s = .next (enterRecord (leaveIntake s c.toNat m) m x r) := by
  change execRecordIntake c s = _
  unfold leaveIntake at ht ⊢
  simp [execRecordIntake, hd, hn, ht, hx]

end

/-- Without a template that sends, the record is a no-send at once (R404). -/
theorem enterRecord_of_no_template
    (h : r.choice = 0xFFFF ∨ templateAt (recordEntered s m x r) x.ctx r.choice.toNat = none ∨
      (∃ t, templateAt (recordEntered s m x r) x.ctx r.choice.toNat = some t ∧ (t.valid = false ∨ t.len = 0))) :
    enterRecord s m x r = noSend (recordEntered s m x r) m (cb x.ctx 8) 0x0E := by
  unfold recordEntered at h ⊢
  by_cases hc : r.choice = 0xFFFF
  · simp only [enterRecord, if_pos hc]
  · obtain h | h | ⟨t, h, ht⟩ := h
    · exact absurd h hc
    · simp only [enterRecord, if_neg hc, h]
    · simp only [enterRecord, if_neg hc, h]
      exact if_neg (by obtain ht | ht := ht <;> simp [ht])

theorem enterRecord_of_template {t : Template} (hc : r.choice ≠ 0xFFFF)
    (h : templateAt (recordEntered s m x r) x.ctx r.choice.toNat = some t) (hv : t.valid = true) (hl : t.len ≠ 0) :
    enterRecord s m x r = composeReply (recordEntered s m x r) m x r t := by
  unfold recordEntered at h ⊢
  simp only [enterRecord, if_neg hc, h]
  exact if_pos (by simp [hv, hl])

end

/-! ### The order of the risk checks (R413) -/

section
variable {s : State} {x : Msg} {c : Nat} {t : Template} {qty : Nat} {p : Option Int}

theorem killCheck_of_global (h : val s 0x2900 1 = 1) : killCheck s c t = 1 := if_pos h

theorem killCheck_of_context (hg : val s 0x2900 1 ≠ 1) (h : val s (cb c 9) 1 = 1) : killCheck s c t = 2 :=
  (if_neg hg).trans (if_pos h)

theorem killCheck_of_session (hg : val s 0x2900 1 ≠ 1) (hc : val s (cb c 9) 1 ≠ 1) (ht : t.sess = true)
    (h : val s (0x2910 + t.session) 8 = 1) : killCheck s c t = 3 := by
  simp [killCheck, hg, hc, ht, h]

theorem killCheck_of_none (hg : val s 0x2900 1 ≠ 1) (hc : val s (cb c 9) 1 ≠ 1)
    (h : t.sess = false ∨ val s (0x2910 + t.session) 8 ≠ 1) : killCheck s c t = 0 := by
  obtain h | h := h <;> simp [killCheck, hg, hc, h]

/-- A kill comes before every other check. -/
theorem riskCheck_of_kill {k : Nat} (h : killCheck s x.ctx t = k) (hk : k ≠ 0) : riskCheck s x t qty p = k := by
  subst h
  exact if_pos hk

section
variable (hk : killCheck s x.ctx t = 0)
include hk

theorem riskCheck_of_quantity (h : val s (cb x.ctx 9) 2 < qty) : riskCheck s x t qty p = 4 := by simp [riskCheck, hk, h]

section
variable (hq : qty ≤ val s (cb x.ctx 9) 2)
include hq

theorem riskCheck_of_notional (h : notionalFails s x.ctx qty (t.qins ≠ 0xFF) p = true) : riskCheck s x t qty p = 5 := by
  rw [riskCheck, hk, if_neg (Decidable.not_not.2 rfl), if_neg (Nat.not_lt.2 hq), if_pos h]

section
variable (hn : notionalFails s x.ctx qty (t.qins ≠ 0xFF) p = false)
include hn

theorem riskCheck_of_band (h : bandFails s x.ctx (referenceOf s x) p = true) : riskCheck s x t qty p = 6 := by
  rw [riskCheck, hk, if_neg (Decidable.not_not.2 rfl), if_neg (Nat.not_lt.2 hq), if_neg (ne_true_of_eq_false hn), if_pos h]

/-- Once the other checks pass, the buckets decide. -/
theorem riskCheck_of_buckets (hb : bandFails s x.ctx (referenceOf s x) p = false) :
    riskCheck s x t qty p = if ∃ b, b ∈ testedBuckets s x.ctx t ∧ tokensOf s b = 0 then 7 else 0 := by
  rw [riskCheck, hk, if_neg (Decidable.not_not.2 rfl), if_neg (Nat.not_lt.2 hq), if_neg (ne_true_of_eq_false hn),
    if_neg (ne_true_of_eq_false hb)]
  simp only [List.any_eq_true, decide_eq_true_eq]

end
end
end
end

/-! ### Tokens (R414, R415) -/

/-- One token fewer in each bucket of a list. -/
def takeTokens (s : State) (l : List Nat) : State := l.foldl (fun v b => setTokens v b (tokensOf v b - 1)) s

theorem takeTokens_parts (l : List Nat) (s : State) :
    ∃ bs, takeTokens s l = { s with chim := { s.chim with buckets := bs } } := by
  induction l generalizing s with
  | nil => exact ⟨s.chim.buckets, rfl⟩
  | cons b l ih =>
    obtain ⟨bs, h⟩ := ih (setTokens s b (tokensOf s b - 1))
    exact ⟨bs, h⟩

theorem tokensOf_takeTokens {l : List Nat} (hl : l.Nodup) (s : State) (b : Nat) :
    tokensOf (takeTokens s l) b = if b ∈ l then tokensOf s b - 1 else tokensOf s b := by
  induction l generalizing s with
  | nil => rfl
  | cons k l ih =>
    obtain ⟨hk, hl⟩ := List.nodup_cons.1 hl
    have htail := ih hl (setTokens s k (tokensOf s k - 1))
    rw [takeTokens, List.foldl_cons, ← takeTokens, htail]
    by_cases h : b = k
    · subst h
      simp [hk]
    · simp [h]

/-- A context's bucket is none of a session's. -/
theorem testedBuckets_nodup {c : Nat} (hc : c < 64) (s : State) (t : Template) : (testedBuckets s c t).Nodup := by
  unfold testedBuckets
  split
  · refine List.nodup_cons.2 ⟨fun h => ?_, List.pairwise_singleton _ _⟩
    have := List.mem_singleton.1 h
    omega
  · exact List.pairwise_singleton _ c

theorem tokensOf_of_buckets {s u : State} (h : u.chim.buckets = s.chim.buckets) (b : Nat) : tokensOf u b = tokensOf s b := by
  simp [tokensOf, h]

/-! ### Port queues and wait lines (R418, R420) -/

section
variable (s : State) (r : Nat) (x : Reply)

theorem enterQueue_buckets : (enterQueue s r x).chim.buckets = s.chim.buckets := rfl

theorem replyAt_enterQueue :
    replyAt (enterQueue s r x) r = some { x with state := .queued, entered := admNow s, parked := false } :=
  (replyAt_setReply s r _ r).trans (if_pos rfl)

theorem mem_queue_enterQueue : r ∈ (portAt (enterQueue s r x) x.port).queue := by
  simp [enterQueue]

end

theorem chimSample_chim (s : State) (m kind template : Nat) : (chimSample s m kind template).chim = s.chim := by
  unfold chimSample sampleNow sample
  split
  · rfl
  · dsimp only
    split <;> rfl

/-- The comparison at the head of a wait line writes whether a reply parks, and no other part of the Chimney. -/
theorem parkHead_cases (s : State) (c p : Nat) : (parkHead s c p).chim = s.chim ∨
    ∃ r x b, replyAt s r = some x ∧ (parkHead s c p).chim = (setReply s r { x with parked := b }).chim := by
  unfold parkHead
  split
  · exact .inl rfl
  · next r _ =>
    split
    · exact .inl rfl
    · next x hx =>
      split
      · exact .inl rfl
      · next t _ =>
        refine .inr ⟨r, x, decide ((counterAt s t.kwait).toNat < ticketOf s c x.template), hx, ?_⟩
        dsimp only [setReply]
        split
        · rw [chimSample_chim]
        · rfl

theorem parkHead_buckets (s : State) (c p : Nat) : (parkHead s c p).chim.buckets = s.chim.buckets := by
  obtain h | ⟨r, x, b, -, h⟩ := parkHead_cases s c p <;> simp [h, setReply]

theorem parkHead_lines (s : State) (c p : Nat) : (parkHead s c p).chim.lines = s.chim.lines := by
  obtain h | ⟨r, x, b, -, h⟩ := parkHead_cases s c p <;> simp [h, setReply]

theorem replyAt_of_chim {s u : State} (h : u.chim = s.chim) (r : Nat) : replyAt u r = replyAt s r := by simp [replyAt, h]

theorem replyAt_parkHead {s : State} {r : Nat} {x : Reply} (c p : Nat) (hx : replyAt s r = some x) :
    ∃ b, replyAt (parkHead s c p) r = some { x with parked := b } := by
  obtain h | ⟨k, y, b, hy, h⟩ := parkHead_cases s c p
  · exact ⟨x.parked, (replyAt_of_chim h r).trans hx⟩
  · rw [replyAt_of_chim h, replyAt_setReply]
    split
    · next hrk =>
      subst hrk
      obtain rfl := Option.some.inj (hx.symm.trans hy)
      exact ⟨b, rfl⟩
    · exact ⟨x.parked, hx⟩

section
variable (s : State) (r : Nat) (x : Reply)

/-- The state once a reply stands at the end of its wait line, before the comparison at the line's head. -/
def lineJoined : State := setLine (setReply s r x) x.ctx x.port (lineAt s x.ctx x.port ++ [r])

/-- A reply that joins is compared at once where it is the head of its line. -/
theorem joinLine_cases :
    joinLine s r x = parkHead (lineJoined s r x) x.ctx x.port ∨ joinLine s r x = lineJoined s r x := by
  unfold joinLine lineJoined
  dsimp only
  split
  · exact .inl rfl
  · exact .inr rfl

theorem joinLine_buckets : (joinLine s r x).chim.buckets = s.chim.buckets := by
  obtain h | h := joinLine_cases s r x
  · rw [h, parkHead_buckets]
    rfl
  · rw [h]
    rfl

theorem replyAt_joinLine : ∃ b, replyAt (joinLine s r x) r = some { x with parked := b } := by
  have hx : replyAt (lineJoined s r x) r = some x := (replyAt_setReply s r x r).trans (if_pos rfl)
  obtain h | h := joinLine_cases s r x
  · rw [h]
    exact replyAt_parkHead _ _ hx
  · exact ⟨x.parked, by rw [h, hx]⟩

theorem lineAt_joinLine : lineAt (joinLine s r x) x.ctx x.port = lineAt s x.ctx x.port ++ [r] := by
  have hl : lineAt (lineJoined s r x) x.ctx x.port = lineAt s x.ctx x.port ++ [r] := by simp [lineAt, lineJoined, setLine]
  obtain h | h := joinLine_cases s r x
  · rw [h, lineAt, parkHead_lines]
    exact hl
  · rw [h, hl]

end

/-! ### Acceptance (R414, R418, R420) -/

/-- The state once an accepted reply has taken its tokens and its number. -/
def tokensTaken (s : State) (x : Msg) (t : Template) : State :=
  let u := takeTokens s (testedBuckets s x.ctx t)
  { u with chim := { u.chim with nextReply := s.chim.nextReply + 1 } }

section
variable (s : State) (x : Msg) (t : Template)

theorem tokensTaken_parts :
    ∃ bs, tokensTaken s x t = { s with chim := { s.chim with buckets := bs, nextReply := s.chim.nextReply + 1 } } := by
  obtain ⟨bs, h⟩ := takeTokens_parts (testedBuckets s x.ctx t) s
  exact ⟨bs, by rw [tokensTaken, h]⟩

theorem admNow_tokensTaken : admNow (tokensTaken s x t) = admNow s := by
  obtain ⟨bs, h⟩ := tokensTaken_parts s x t
  rw [h]
  rfl

theorem ownsCounter_tokensTaken (c k : Nat) : ownsCounter (tokensTaken s x t) c k = ownsCounter s c k := by
  obtain ⟨bs, h⟩ := tokensTaken_parts s x t
  rw [h]
  rfl

/-- In a state whose buckets are those after acceptance, each bucket tested has one token fewer and the others are as before. -/
theorem tokensOf_of_tokensTaken (hc : x.ctx < 64) {u : State} (hu : u.chim.buckets = (tokensTaken s x t).chim.buckets) :
    (∀ b, b ∈ testedBuckets s x.ctx t → tokensOf u b = tokensOf s b - 1) ∧
    (∀ b, b ∉ testedBuckets s x.ctx t → tokensOf u b = tokensOf s b) := by
  have htokens : ∀ b, tokensOf u b = if b ∈ testedBuckets s x.ctx t then tokensOf s b - 1 else tokensOf s b := fun b =>
    (tokensOf_of_buckets hu b).trans (tokensOf_takeTokens (testedBuckets_nodup hc s t) s b)
  exact ⟨fun b hb => (htokens b).trans (if_pos hb), fun b hb => (htokens b).trans (if_neg hb)⟩

variable {t} (y : Reply)

theorem acceptReply_eq : acceptReply s x t y =
    if t.kwait = 0xFFFF then enterQueue (tokensTaken s x t) s.chim.nextReply y
    else if !ownsCounter s x.ctx t.kwait then enterRecovering (setReply (tokensTaken s x t) s.chim.nextReply y) x.ctx 0x0203
    else joinLine (tokensTaken s x t) s.chim.nextReply y := by
  have hnext : (takeTokens s (testedBuckets s x.ctx t)).chim.nextReply = s.chim.nextReply := by
    obtain ⟨bs, h⟩ := takeTokens_parts (testedBuckets s x.ctx t) s
    rw [h]
  rw [← ownsCounter_tokensTaken s x t, tokensTaken, ← hnext]
  rfl

theorem acceptReply_of_no_wait (h : t.kwait = 0xFFFF) :
    acceptReply s x t y = enterQueue (tokensTaken s x t) s.chim.nextReply y := by
  rw [acceptReply_eq, if_pos h]

theorem acceptReply_of_foreign_counter (h : t.kwait ≠ 0xFFFF) (ho : ownsCounter s x.ctx t.kwait = false) :
    acceptReply s x t y = enterRecovering (setReply (tokensTaken s x t) s.chim.nextReply y) x.ctx 0x0203 := by
  rw [acceptReply_eq, if_neg h, ho]
  rfl

theorem acceptReply_of_own_counter (h : t.kwait ≠ 0xFFFF) (ho : ownsCounter s x.ctx t.kwait = true) :
    acceptReply s x t y = joinLine (tokensTaken s x t) s.chim.nextReply y := by
  rw [acceptReply_eq, if_neg h, ho]
  rfl

end

/-! ### Refill (R415) -/

/-- The bucket that a refill names: of a context, or of a session. -/
def refillBucket (c : BitVec 6) (session : Option (BitVec 6)) : Nat :=
  match session with | some k => 64 + k.toNat | none => c.toNat

section
variable {s : State} {c : BitVec 6} {session : Option (BitVec 6)}

theorem bucketRefill_of_room (hd : bucketDepth s (refillBucket c session) ≠ noBucket)
    (ht : tokensOf s (refillBucket c session) < bucketDepth s (refillBucket c session)) :
    exec (.bucketRefill c session) s =
      .next (setTokens s (refillBucket c session) (tokensOf s (refillBucket c session) + 1)) :=
  congrArg Host.Outcome.next (if_pos (Bool.and_eq_true_iff.2 ⟨decide_eq_true hd, decide_eq_true ht⟩))

/-- A bucket that is full, or that a session does not have, stays. -/
theorem bucketRefill_of_full (h : bucketDepth s (refillBucket c session) = noBucket ∨
      bucketDepth s (refillBucket c session) ≤ tokensOf s (refillBucket c session)) :
    exec (.bucketRefill c session) s = .next s := by
  have hroom : ¬(bucketDepth s (refillBucket c session) ≠ noBucket &&
      tokensOf s (refillBucket c session) < bucketDepth s (refillBucket c session)) = true := by
    obtain h | h := h <;> simp [h]
  exact congrArg Host.Outcome.next (if_neg hroom)

end

/-- Settles O50. The intake and the risk checks follow their cases in order; an accepted reply's buckets are written before it
joins a queue or a line, which leave them. -/
theorem recordsBecomeCheckedReplies : Obligations.RecordsBecomeCheckedReplies := by
  refine ⟨fun s c m x r => ⟨recordIntake_of_idle, fun hd hn => ⟨recordIntake_of_stale hd hn,
      recordIntake_of_delivered hd hn, fun ht hx => ⟨fun h => ?_, fun t hc hat hv hl => ?_⟩⟩⟩,
    fun s x t qty p => ?_, fun s x t y hc hw => ?_,
    fun s x t y hc hw => ⟨acceptReply_of_foreign_counter s x y hw, fun ho => ?_⟩,
    fun s c session => ⟨bucketRefill_of_room, bucketRefill_of_full⟩⟩
  · exact (recordIntake_of_current hd hn ht hx).trans (congrArg Host.Outcome.next (enterRecord_of_no_template h))
  · have hcompose := (recordIntake_of_current hd hn ht hx).trans
      (congrArg Host.Outcome.next (enterRecord_of_template hc hat hv hl))
    refine ⟨fun h => ?_, fun h hs ho => ?_, fun h ho => ⟨fun hbad => ?_, fun body qty price hb hq hp => ?_⟩⟩
    · exact hcompose.trans (congrArg Host.Outcome.next (composeReply_of_bad_verdict h))
    · exact hcompose.trans (congrArg Host.Outcome.next (composeReply_of_session_not_open h hs ho))
    · exact hcompose.trans (congrArg Host.Outcome.next (composeReply_of_bad_insertion h ho hbad))
    · have hchecks := hcompose.trans (congrArg Host.Outcome.next (composeReply_of_composed h ho hb hq hp rfl))
      exact ⟨fun hk => hchecks.trans (congrArg Host.Outcome.next (if_pos hk)),
        fun hk => hchecks.trans (congrArg Host.Outcome.next (if_neg (Decidable.not_not.2 hk)))⟩
  · refine ⟨fun h => riskCheck_of_kill (killCheck_of_global h) (by decide), fun hg =>
      ⟨fun h => riskCheck_of_kill (killCheck_of_context hg h) (by decide), fun hc =>
      ⟨fun ht h => riskCheck_of_kill (killCheck_of_session hg hc ht h) (by decide), fun hs => ?_⟩⟩⟩
    have hk := killCheck_of_none hg hc hs
    refine ⟨riskCheck_of_quantity hk, fun hq => ⟨riskCheck_of_notional hk hq,
      fun hn => ⟨riskCheck_of_band hk hq hn, fun hb => ?_⟩⟩⟩
    rw [riskCheck_of_buckets hk hq hn hb]
    exact ⟨fun h => if_pos h, fun h => if_neg fun ⟨b, hmem, hzero⟩ => h b hmem hzero⟩
  · rw [acceptReply_of_no_wait s x y hw]
    obtain ⟨htaken, hother⟩ := tokensOf_of_tokensTaken s x t hc (enterQueue_buckets _ s.chim.nextReply y)
    refine ⟨htaken, hother, ?_, mem_queue_enterQueue _ _ y⟩
    rw [replyAt_enterQueue, admNow_tokensTaken]
  · rw [acceptReply_of_own_counter s x y hw ho]
    obtain ⟨htaken, hother⟩ := tokensOf_of_tokensTaken s x t hc (joinLine_buckets _ s.chim.nextReply y)
    obtain ⟨b, hb⟩ := replyAt_joinLine (tokensTaken s x t) s.chim.nextReply y
    refine ⟨htaken, hother, ⟨_, hb, rfl, rfl⟩, ?_⟩
    rw [lineAt_joinLine]
    exact List.mem_append_right _ List.mem_cons_self

end Sys2Proof.Proofs.ChimneyIntake
end

section
/-! SUPPORT. Sync counters (R463–R479): a change of a counter writes its value, releases waiters and leaves the rest; an
increment first counts itself, and then changes its counter to the saturated sum. -/

namespace Sys2Proof.Proofs.SyncCounters
open Sys2Proof Sys2Proof.Machine

theorem tabGet_of_not_mem {α : Type} (d : α) {t : Tab α} {k : Nat} (h : k ∉ t.map (·.1)) : tabGet d t k = d := by
  induction t with
  | nil => rfl
  | cons x t ih =>
    obtain ⟨hx, ht⟩ := not_or.1 (mt List.mem_cons.2 h)
    rw [tabGet, if_neg hx, ih ht]

/-! ### Release of the waiters of a counter (R469, R470) -/

/-- No KWAIT of a run is parked on counter `k` for a value that `v` reaches. -/
def NoneDue (k : Nat) (v : BitVec 64) (r : HRun) : Prop := ∀ e, e ∈ r.parked → e.2.1 = k → ¬ e.2.2 ≤ v

/-- The sites of a run that are parked on counter `k` for a value that `v` reaches. -/
def dueSites (k : Nat) (v : BitVec 64) (r : HRun) : List Nat :=
  (r.parked.filter fun e => e.2.1 = k && decide (e.2.2 ≤ v)).map (·.1)

/-- The part of a counter's comparison that concerns context `c`. -/
def releaseCtx (k : Nat) (v : BitVec 64) (s : State) (c : Nat) : State :=
  let x := ctxAt s c
  let due := dueSites k v x.run
  if due.isEmpty then s
  else setCtx s c { x with run := { x.run with
    parked := x.run.parked.filter fun e => !due.contains e.1, released := x.run.released ++ due } }

theorem releaseSites_eq (s : State) (k : Nat) :
    releaseSites s k = (s.ctxs.map (·.1)).foldl (releaseCtx k (counterAt s k)) s := by
  rw [List.foldl_map]
  rfl

section
variable {k : Nat} {v : BitVec 64}

theorem mem_dueSites {r : HRun} {e : Nat × Nat × BitVec 64} (h : e ∈ r.parked) (hk : e.2.1 = k) (hv : e.2.2 ≤ v) :
    e.1 ∈ dueSites k v r :=
  List.mem_map_of_mem (List.mem_filter.2 ⟨h, by simp [hk, hv]⟩)

theorem releaseCtx_parts (s : State) (c : Nat) : ∃ x, releaseCtx k v s c = { s with ctxs := x } := by
  unfold releaseCtx
  dsimp only
  split
  · exact ⟨s.ctxs, rfl⟩
  · exact ⟨_, rfl⟩

theorem noneDue_releaseCtx_self (s : State) (c : Nat) : NoneDue k v (ctxAt (releaseCtx k v s c) c).run := by
  intro e he hk hv
  unfold releaseCtx at he
  dsimp only at he
  split at he
  · next hempty =>
    rw [List.isEmpty_iff] at hempty
    exact List.not_mem_nil (hempty ▸ mem_dueSites he hk hv)
  · rw [ctxAt_setCtx, if_pos rfl] at he
    obtain ⟨hparked, hkept⟩ := List.mem_filter.1 he
    simp [mem_dueSites hparked hk hv] at hkept

theorem ctxAt_releaseCtx_ne (s : State) {c j : Nat} (h : j ≠ c) : ctxAt (releaseCtx k v s c) j = ctxAt s j := by
  unfold releaseCtx
  dsimp only
  split
  · rfl
  · rw [ctxAt_setCtx, if_neg h]

/-- A release leaves nothing due in its own context, nor in any where nothing was due. -/
theorem noneDue_releaseCtx {s : State} {c j : Nat} (h : j = c ∨ NoneDue k v (ctxAt s j).run) :
    NoneDue k v (ctxAt (releaseCtx k v s c) j).run := by
  by_cases hj : j = c
  · subst hj
    exact noneDue_releaseCtx_self s j
  · rw [ctxAt_releaseCtx_ne s hj]
    exact h.resolve_left hj

theorem noneDue_foldl_releaseCtx {l : List Nat} {s : State} {j : Nat} (h : j ∈ l ∨ NoneDue k v (ctxAt s j).run) :
    NoneDue k v (ctxAt (l.foldl (releaseCtx k v) s) j).run := by
  induction l generalizing s with
  | nil => exact h.resolve_left List.not_mem_nil
  | cons c l ih =>
    refine ih ?_
    rw [List.mem_cons, or_right_comm] at h
    exact h.symm.imp_right noneDue_releaseCtx

end

/-- Every context with a record is compared, and one without has nothing parked. -/
theorem noneDue_releaseSites (s : State) (k c : Nat) : NoneDue k (counterAt s k) (ctxAt (releaseSites s k) c).run := by
  rw [releaseSites_eq]
  refine noneDue_foldl_releaseCtx (Decidable.or_iff_not_imp_left.2 fun h => ?_)
  rw [ctxAt, tabGet_of_not_mem Ctx.reset h]
  exact fun e he => absurd he List.not_mem_nil

theorem releaseSites_parts (s : State) (k : Nat) : ∃ x, releaseSites s k = { s with ctxs := x } := by
  rw [releaseSites_eq]
  refine List.foldlRecOn (motive := fun (u : State) => ∃ x, u = { s with ctxs := x }) _ _ ⟨s.ctxs, rfl⟩ ?_
  rintro _ ⟨x, rfl⟩ c -
  exact releaseCtx_parts _ c

theorem releaseHeads_parts (s : State) (k : Nat) : ∃ y, releaseHeads s k = { s with chim := y } := by
  refine List.foldlRecOn (motive := fun (u : State) => ∃ y, u = { s with chim := y }) _ _ ⟨s.chim, rfl⟩ ?_
  rintro _ ⟨y, rfl⟩ r -
  split
  · exact ⟨y, rfl⟩
  · split
    · exact ⟨_, rfl⟩
    · exact ⟨y, rfl⟩

/-! ### The change of a counter (R470) -/

section
variable (s : State) (k : Nat) (v : BitVec 64)

/-- A change writes the counter, the contexts' waiters and the Chimney's, and nothing else. -/
theorem changeCounter_parts : ∃ x y, (changeCounter s k v).2 = { setCounter s k v with ctxs := x, chim := y } := by
  obtain ⟨x, hx⟩ := releaseSites_parts (setCounter s k v) k
  obtain ⟨y, hy⟩ := releaseHeads_parts (releaseSites (setCounter s k v) k) k
  exact ⟨x, y, by rw [changeCounter, hy, hx]⟩

theorem counterAt_changeCounter (j : Nat) : counterAt (changeCounter s k v).2 j = if j = k then v else counterAt s j := by
  obtain ⟨x, y, h⟩ := changeCounter_parts s k v
  rw [h]
  exact counterAt_setCounter s k v j

theorem counterAt_changeCounter_self : counterAt (changeCounter s k v).2 k = v :=
  (counterAt_changeCounter s k v k).trans (if_pos rfl)

theorem counterAt_changeCounter_ne {j : Nat} (h : j ≠ k) : counterAt (changeCounter s k v).2 j = counterAt s j :=
  (counterAt_changeCounter s k v j).trans (if_neg h)

/-- After a change no waiter that the new value reaches is still parked. -/
theorem noneDue_changeCounter (c : Nat) : NoneDue k v (ctxAt (changeCounter s k v).2 c).run := by
  obtain ⟨y, hy⟩ := releaseHeads_parts (releaseSites (setCounter s k v) k) k
  have h := noneDue_releaseSites (setCounter s k v) k c
  rw [counterAt_setCounter, if_pos rfl] at h
  rw [changeCounter, hy]
  exact h

end

/-! ### Increments (R465, R467, R479) -/

/-- The saturated sum. -/
def incValue (v amount : BitVec 64) : BitVec 64 := if 2 ^ 64 ≤ v.toNat + amount.toNat then counterMax else v + amount

theorem incValue_toNat (v amount : BitVec 64) : (incValue v amount).toNat = min (v.toNat + amount.toNat) (2 ^ 64 - 1) := by
  unfold incValue
  split
  · rw [show counterMax.toNat = 2 ^ 64 - 1 from rfl]
    omega
  · rw [BitVec.toNat_add]
    omega

/-- A saturation counts, and is logged the first time. -/
def noteSaturation (s : State) (k c : Nat) : State :=
  let u := bump32 s 0x2B00 6
  if u.ctr.saturated.contains k then u
  else sootCtx { u with ctr := { u.ctr with saturated := k :: u.ctr.saturated } } c 0x2B01 k 0

/-- The state once an increment is counted, and before its counter changes. -/
def countInc (s : State) (k : Nat) (amount : BitVec 64) (c : Nat) : State :=
  if 2 ^ 64 ≤ (counterAt s k).toNat + amount.toNat then noteSaturation (bump s 0x2B00 7) k c else bump s 0x2B00 7

theorem performInc_eq (s : State) (k : Nat) (amount : BitVec 64) (c : Nat) :
    performInc s k amount c = (changeCounter (countInc s k amount c) k (incValue (counterAt s k) amount)).2 := by
  have hmax : counterMax.toNat < (counterAt s k).toNat + amount.toNat ↔ 2 ^ 64 ≤ (counterAt s k).toNat + amount.toNat :=
    Nat.succ_le_iff.symm
  unfold performInc countInc incValue
  simp only [hmax]
  split
  · rfl
  · rfl

section
variable (s : State) (k c : Nat)

theorem noteSaturation_parts : ∃ o r l, noteSaturation s k c =
    { s with objs := o, recov := r, ctr := { s.ctr with saturated := l } } := by
  unfold noteSaturation sootCtx
  dsimp only
  split
  · exact ⟨_, _, _, rfl⟩
  · obtain ⟨r, o, h⟩ := soot_parts _ _ _ _ _
    rw [h]
    exact ⟨_, _, _, rfl⟩

theorem mem_saturated_noteSaturation (j : Nat) : j ∈ (noteSaturation s k c).ctr.saturated ↔ j ∈ s.ctr.saturated ∨ j = k := by
  unfold noteSaturation
  dsimp only
  split
  · next h =>
    rw [List.contains_iff_mem] at h
    exact ⟨.inl, fun hj => hj.elim id fun e => e ▸ h⟩
  · rw [sootCtx_ctr]
    exact List.mem_cons.trans or_comm

theorem reg_noteSaturation {sub : Nat} (h : objKey 0x2B00 sub ≠ objKey 0x2C00 2) (h' : objKey 0x2B00 sub ≠ objKey 0x2C00 5) :
    reg (noteSaturation s k c) 0x2B00 sub 0 = reg (bump32 s 0x2B00 6) 0x2B00 sub 0 := by
  unfold noteSaturation
  dsimp only
  split
  · rfl
  · rw [sootCtx, soot_reg _ _ _ _ _ _ _ _ h h']
    rfl

variable (amount : BitVec 64)

theorem countInc_parts : ∃ o r l, countInc s k amount c =
    { s with objs := o, recov := r, ctr := { s.ctr with saturated := l } } := by
  unfold countInc
  split
  · exact noteSaturation_parts (bump s 0x2B00 7) k c
  · exact ⟨_, _, _, rfl⟩

theorem increments_countInc : reg (countInc s k amount c) 0x2B00 7 0 = (reg s 0x2B00 7 0 + 1) % 2 ^ 64 := by
  unfold countInc
  split
  · rw [reg_noteSaturation _ _ _ (by decide) (by decide), bump32, bumpBy, reg_setReg_ne _ _ _ _ _ _ _ _ (by decide)]
    exact reg_setReg_self _ _ _ _ _
  · exact reg_setReg_self _ _ _ _ _

theorem saturations_countInc : reg (countInc s k amount c) 0x2B00 6 0 =
    if 2 ^ 64 ≤ (counterAt s k).toNat + amount.toNat then (reg s 0x2B00 6 0 + 1) % 2 ^ 32 else reg s 0x2B00 6 0 := by
  have hbump : reg (bump s 0x2B00 7) 0x2B00 6 0 = reg s 0x2B00 6 0 := reg_setReg_ne _ _ _ _ _ _ _ _ (by decide)
  unfold countInc
  split
  · rw [reg_noteSaturation _ _ _ (by decide) (by decide), bump32, bumpBy, reg_setReg_self, hbump]
  · exact hbump

theorem mem_saturated_countInc (j : Nat) : j ∈ (countInc s k amount c).ctr.saturated ↔
    j ∈ s.ctr.saturated ∨ (j = k ∧ 2 ^ 64 ≤ (counterAt s k).toNat + amount.toNat) := by
  unfold countInc
  split
  · next h => exact (mem_saturated_noteSaturation _ k c j).trans (or_congr_right (and_iff_left h).symm)
  · next h => exact (or_iff_left fun hj => h hj.2).symm

end

section
variable {s : State} {q : Requester} {c : Nat} {data : Bytes}

theorem writeIncrement_of_foreign (h : selected s q (cb c 0x0B) 3 < (counterRange s c).1 ∨
      (counterRange s c).1 + (counterRange s c).2 ≤ selected s q (cb c 0x0B) 3) :
    writeIncrement q c data s = .error abRange :=
  if_pos (by simpa using h)

section
variable (hlo : (counterRange s c).1 ≤ selected s q (cb c 0x0B) 3)
  (hhi : selected s q (cb c 0x0B) 3 < (counterRange s c).1 + (counterRange s c).2)
include hlo hhi

theorem writeIncrement_of_own : writeIncrement q c data s =
    if ctxState s c = .free || ctxState s c = .loading || ctxState s c = .unloading then .error abState
    else .ok (requestInc s (selected s q (cb c 0x0B) 3) (BitVec.ofNat 64 (leNat data)) (ctxTag s c)) :=
  if_neg (by simp [hlo, hhi])

theorem writeIncrement_of_live (h : ctxState s c = .closed ∨ ctxState s c = .opened ∨ ctxState s c = .recovering) :
    writeIncrement q c data s = .ok (requestInc s (selected s q (cb c 0x0B) 3) (BitVec.ofNat 64 (leNat data)) (ctxTag s c)) := by
  rw [writeIncrement_of_own hlo hhi]
  obtain h | h | h := h <;> simp [h]

theorem writeIncrement_of_not_live (h : ctxState s c = .free ∨ ctxState s c = .loading ∨ ctxState s c = .unloading) :
    writeIncrement q c data s = .error abState := by
  rw [writeIncrement_of_own hlo hhi]
  exact if_pos (by simpa [or_assoc] using h)

end
end

/-! ### Hand sets (R477, R478) -/

theorem counterAt_logHandSet (s : State) (q : Requester) (k a b released : Nat) (refused : Bool) (j : Nat) :
    counterAt (logHandSet s q k a b released refused) j = counterAt s j := by
  simp [counterAt, logHandSet]

section
variable {s : State} {q : Requester} {v : BitVec 64} {k : Nat} (hk : selected s q 0x2B00 1 = k)
include hk

theorem writeHandSet_of_lower (h : v.toNat < (counterAt s k).toNat) : writeHandSet q (toLe 8 v.toNat) s =
    .errorIn abRange (logHandSet s q k (counterAt s k).toNat v.toNat 0 true) := by
  simp [writeHandSet, hk, leNat_toLe64, h]

section
variable (h : (counterAt s k).toNat ≤ v.toNat)
include h

theorem writeHandSet_of_unowned (ho : counterOwner s k = none) : writeHandSet q (toLe 8 v.toNat) s =
    .errorIn abState (logHandSet s q k (counterAt s k).toNat v.toNat 0 true) := by
  simp [writeHandSet, hk, leNat_toLe64, Nat.not_lt.2 h, ho]

theorem writeHandSet_of_owned (ho : counterOwner s k ≠ none) : writeHandSet q (toLe 8 v.toNat) s =
    .ok (logHandSet (bump32 (changeCounter s k v).2 0x2B00 5) q k (counterAt s k).toNat v.toNat (changeCounter s k v).1 false) := by
  simp [writeHandSet, hk, leNat_toLe64, Nat.not_lt.2 h, ho]

end
end

/-! ### COUNTER_UPDATE (R466) -/

section
variable {s : State}

theorem counterUpdate_of_idle (h : s.ctr.requests = []) : exec .counterUpdate s = .next s := by
  change execCounterUpdate s = _
  simp [execCounterUpdate, h]

/-- The state once the oldest request is taken. -/
def requestTaken (s : State) (rest : List IncReq) : State := { s with ctr := { s.ctr with requests := rest } }

variable {r : IncReq} {rest : List IncReq} (h : s.ctr.requests = r :: rest)
include h

theorem counterUpdate_of_owned (ho : ownsCounter (requestTaken s rest) (tagCtx r.tag) r.counter = true) :
    exec .counterUpdate s = .next (performInc (requestTaken s rest) r.counter r.amount (tagCtx r.tag)) := by
  change execCounterUpdate s = _
  unfold requestTaken at ho ⊢
  simp [execCounterUpdate, h, ho]

theorem counterUpdate_of_foreign (ho : ownsCounter (requestTaken s rest) (tagCtx r.tag) r.counter = false) :
    exec .counterUpdate s = .next (enterRecovering (requestTaken s rest) (tagCtx r.tag) 0x0203) := by
  change execCounterUpdate s = _
  unfold requestTaken at ho ⊢
  simp [execCounterUpdate, h, ho]

end

/-- What an increment leaves: the saturated sum in its counter, its counts, no waiter due, and the parts it does not touch. -/
theorem performInc_effect (s : State) (k : Nat) (amount : BitVec 64) (c : Nat) :
    let t := performInc s k amount c
    let sum := (counterAt s k).toNat + amount.toNat
    (counterAt t k).toNat = min sum (2 ^ 64 - 1) ∧ (∀ j, j ≠ k → counterAt t j = counterAt s j) ∧
    reg t 0x2B00 7 0 = (reg s 0x2B00 7 0 + 1) % 2 ^ 64 ∧
    reg t 0x2B00 6 0 = (if 2 ^ 64 ≤ sum then (reg s 0x2B00 6 0 + 1) % 2 ^ 32 else reg s 0x2B00 6 0) ∧
    (∀ j, j ∈ t.ctr.saturated ↔ j ∈ s.ctr.saturated ∨ (j = k ∧ 2 ^ 64 ≤ sum)) ∧
    (∀ j, NoneDue k (counterAt t k) (ctxAt t j).run) ∧
    t.ctr.requests = s.ctr.requests ∧ t.work = s.work ∧ t.grid = s.grid ∧ t.quartz = s.quartz ∧ t.net = s.net := by
  dsimp only
  rw [performInc_eq, counterAt_changeCounter_self]
  obtain ⟨o, l, m, hcount⟩ := countInc_parts s k c amount
  obtain ⟨x, y, hchange⟩ := changeCounter_parts (countInc s k amount c) k (incValue (counterAt s k) amount)
  refine ⟨incValue_toNat _ _, fun j hj => ?_, ?_, ?_, fun j => ?_, noneDue_changeCounter _ _ _, ?_⟩
  · rw [counterAt_changeCounter_ne _ _ _ hj, hcount]
    rfl
  all_goals rw [hchange]
  · exact increments_countInc s k c amount
  · exact saturations_countInc s k c amount
  · exact mem_saturated_countInc s k c amount j
  · rw [hcount]
    exact ⟨rfl, rfl, rfl, rfl, rfl⟩

/-- Settles O53. Each write follows its object's rules case by case; a performed increment and an accepted hand set are both a
change of the counter, which leaves no waiter due. -/
theorem countersRiseAndSaturate : Obligations.CountersRiseAndSaturate := by
  refine ⟨fun s q c n ha => ⟨fun hlo hhi => ⟨fun hst => ?_, fun hst => ?_⟩, fun hk => ?_⟩,
    fun s => counterUpdate_of_idle, fun s r rest hr => ⟨fun ho => ?_, counterUpdate_of_foreign hr⟩,
    fun s q v ha => ⟨fun hv => ⟨?_, counterAt_logHandSet s q _ _ _ 0 true _⟩, fun hv ho => ?_, fun hv ho => ?_⟩⟩
  · have hgo := writeIncrement_of_live (data := toLe 8 n.toNat) hlo hhi hst
    rw [leNat_toLe64, BitVec.ofNat_toNat, BitVec.setWidth_eq] at hgo
    exact congrArg Host.Outcome.next (request_ok ha hgo)
  · exact congrArg Host.Outcome.next (request_error ha (writeIncrement_of_not_live hlo hhi hst))
  · exact congrArg Host.Outcome.next (request_error ha (writeIncrement_of_foreign hk))
  · exact ⟨_, counterUpdate_of_owned hr ho, performInc_effect (requestTaken s rest) r.counter r.amount (tagCtx r.tag)⟩
  · exact congrArg Host.Outcome.next (request_errorIn ha (writeHandSet_of_lower rfl hv))
  · exact congrArg Host.Outcome.next (request_errorIn ha (writeHandSet_of_unowned rfl hv ho))
  · exact ⟨congrArg Host.Outcome.next (request_ok ha (writeHandSet_of_owned rfl hv ho)), counterAt_changeCounter_self _ _ _,
      fun j => counterAt_changeCounter_ne _ _ _, noneDue_changeCounter _ _ _⟩

end Sys2Proof.Proofs.SyncCounters
end

section
/-! SUPPORT. The checks of a dictionary write (R513–R519): what each answers in each of its cases, and that a write which passes
one of them is left to the next. -/

namespace Sys2Proof.Proofs.DictionaryWrite
open Sys2Proof Sys2Proof.Machine

/-! ### Existence, access and level (R513, R515, R516) -/

section
variable {s : State} {q : Requester} {i sub : Nat}

theorem accessAbort_of_unassigned (h : indexAssigned i = false) : accessAbort s q i sub = some abExist := by
  simp [accessAbort, h]

section
variable (hi : indexAssigned i = true)
include hi

theorem accessAbort_of_no_row (h : findRow i sub = none) : accessAbort s q i sub = some abSub := by
  simp [accessAbort, hi, h]

section
variable {r : Row} (hr : findRow i sub = some r)
include hr

theorem accessAbort_of_ro (h : r.acc = .ro) : accessAbort s q i sub = some abRo := by
  simp [accessAbort, hi, hr, h]

/-- Out of scope, the send sessions' own test and the level of `wo` and `rwi` answer with the same code. -/
theorem accessAbort_of_out_of_scope (h : r.acc = .rwi ∨ r.acc = .wo) (hsc : inScope s q i = false) :
    accessAbort s q i sub = some abAccess := by
  obtain h | h := h <;> simp [accessAbort, hi, hr, h, hsc]

/-- In scope any object that is not `ro` may be written; out of scope only a `rw` one that belongs to no send session. -/
theorem accessAbort_of_writable (hro : r.acc ≠ .ro) (hlevel : r.acc = .rw ∨ inScope s q i = true)
    (hsession : i < 0x2910 ∨ 0x2950 ≤ i ∨ inScope s q i = true) : accessAbort s q i sub = none := by
  cases hsc : inScope s q i with
  | true =>
    cases hacc : r.acc with
    | ro => exact absurd hacc hro
    | rw | wo | rwi => simp [accessAbort, hi, hr, hacc, hsc]
  | false =>
    have hrw : r.acc = .rw := by simpa [hsc] using hlevel
    have hout : 0x2910 ≤ i → ¬ i < 0x2950 := by
      simp only [hsc, Bool.false_eq_true, or_false] at hsession
      omega
    simpa [accessAbort, hi, hr, hrw, hsc] using hout

end
end
end

/-! ### Length (R514) -/

section
variable {r : Row} {data : Bytes}

theorem lengthAbort_of_length_ne {n : Nat} (hn : tyBytes r.ty = some n) (h : data.length ≠ n) :
    lengthAbort r data = some abLength := by
  simp [lengthAbort, hn, h]

/-- A value of the size of its type passes, and any value of a type without a size. -/
theorem lengthAbort_of_fits (h : ∀ n, tyBytes r.ty = some n → data.length = n) : lengthAbort r data = none := by
  cases hn : tyBytes r.ty with
  | none => simp [lengthAbort, hn]
  | some n => simp [lengthAbort, hn, h n hn]

end

/-! ### The checks in order (R519) -/

section
variable {s : State} {q : Requester} {i sub : Nat} {data : Bytes} (hs : served s = true)
include hs

theorem writeAbort_of_accessAbort {a : BitVec 32} (h : accessAbort s q i sub = some a) :
    writeAbort s q i sub data = some a := by
  simp [writeAbort, hs, h]

section
variable (hacc : accessAbort s q i sub = none)
include hacc

theorem writeAbort_of_otherOpen (h : otherOpen s q i sub = true) : writeAbort s q i sub data = some abBusy := by
  simp [writeAbort, hs, hacc, h]

section
variable (ho : otherOpen s q i sub = false) {r : Row} (hr : findRow i sub = some r)
include ho hr

theorem writeAbort_of_lengthAbort {a : BitVec 32} (h : lengthAbort r data = some a) :
    writeAbort s q i sub data = some a := by
  simp [writeAbort, hs, hacc, ho, hr, h]

theorem writeAbort_of_inRange (hlen : lengthAbort r data = none) (h : inRange r data = true) :
    writeAbort s q i sub data = none := by
  simp [writeAbort, hs, hacc, ho, hr, hlen, h]

end
end
end

/-- Settles O8. Each check is reached once those before it have passed; a write that passes them all has its object's own
refusal as its answer. -/
theorem writeChecksComeInOrder : Obligations.WriteChecksComeInOrder := by
  intro s q i sub data hs
  refine ⟨fun hi => writeAbort_of_accessAbort hs (accessAbort_of_unassigned hi),
    fun hi hr => writeAbort_of_accessAbort hs (accessAbort_of_no_row hi hr),
    fun r hi hr hro => writeAbort_of_accessAbort hs (accessAbort_of_ro hi hr hro),
    fun r hi hr hlevel hsc => writeAbort_of_accessAbort hs (accessAbort_of_out_of_scope hi hr hlevel hsc),
    fun r hi hr hro hlevel hsession => ?_, fun go a hh hd hw hgo => request_error ⟨hh, hd, hw⟩ hgo⟩
  have hacc := accessAbort_of_writable hi hr hro hlevel hsession
  refine ⟨writeAbort_of_otherOpen hs hacc, fun ho =>
    ⟨fun n hn hlen => writeAbort_of_lengthAbort hs hacc ho hr (lengthAbort_of_length_ne hn hlen), fun hfits => ?_⟩⟩
  have hlen := lengthAbort_of_fits hfits
  exact ⟨HearthFabric.writeAbort_of_not_inRange hs hacc ho hr hlen, writeAbort_of_inRange hs hacc ho hr hlen⟩

end Sys2Proof.Proofs.DictionaryWrite
end
